-- ==== Sys2Proof/Word.lean ====
section
/-! DEFINITION. Word.lean: the fixed-width words of the block (spec 00_scope R5, R8) and the data type of a read-only
memory space. -/

namespace Sys2Proof

/-- A byte: a command or data byte on the bus, a FONT location (20_memory R41). -/
abbrev Byte := BitVec 8

/-- A 16-bit word: a coordinate register, a response, a SRC location (20_memory R42), a bus word (41 R94). -/
abbrev Half := BitVec 16

/-- A packed 16-bit colour (00_scope R9, "packed color"). -/
abbrev Colour := BitVec 16

/-- A FONT or SRC address, 32 bits unsigned (20_memory R41, R42). -/
abbrev Addr := BitVec 32

/-- A command word (30_encoding R63: every command word is exactly 104 bits). -/
abbrev CmdWord := BitVec 104

/-- A memory space of `w`-bit locations: the listed locations, by rising address, each with its value; an unlisted
location reads as zero (`Machine.Mem.read`). With `w = 8` the type is `List Host.Cell`. -/
abbrev Mem (w : Nat) := List (Nat × BitVec w)

end Sys2Proof
end

