-- ==== Sys2Proof/Syntax.lean ====
section
/-! DEFINITION. Syntax.lean: the operations of the block, one constructor per row of spec/opcode_table.json. -/

namespace Sys2Proof

/-- The 20 operations (30_encoding R62) with their operands as 30 R65 reads them: a coordinate is the integer `s16` of
its field (`Int`), `o`, `col` and `row` are `u16` (`Nat`), and what R65 calls raw bits, a byte or a `u32` address is a
bit vector. Operand order is the source's (R64). -/
inductive Instr where
  /-- 45 R151: the power-up sequence. -/
  | init
  /-- 45 R156: set the orientation. -/
  | setorient (o : Nat)
  /-- 45 R159: the logical width. -/
  | getw
  /-- 45 R160: the logical height. -/
  | geth
  /-- 45 R163: pack a colour. -/
  | packrgb (r g b : Byte)
  /-- 40 R84: set the mask. -/
  | setmask (left right top bottom : Int)
  /-- 41 R104: scroll definition, passed through. -/
  | scrolldef (topFixed scrollArea bottomFixed : Half)
  /-- 41 R105: scroll start, passed through. -/
  | scrollstart (offset : Half)
  /-- 42 R112: filled rectangle. -/
  | rectfill (left right top bottom : Int) (color : Colour)
  /-- 42 R113: hollow rectangle. -/
  | rect (left right top bottom : Int) (color : Colour)
  /-- 42 R114: bitmap blit from SRC. -/
  | blt (left right top bottom : Int) (src : Addr)
  /-- 43 R125: set the pen. -/
  | moveto (x y : Int)
  /-- 43 R126: line from the pen. -/
  | lineto (x y : Int) (color : Colour)
  /-- 43 R127: line between two points. -/
  | line (x1 y1 x2 y2 : Int) (color : Colour)
  /-- 44 R132: register a font table. -/
  | fontface (base : Addr)
  /-- 44 R134: set the packed glyph colour. -/
  | fontcolor (packedBgFg : BitVec 32)
  /-- 44 R135: set the cursor to a cell. -/
  | locate (col row : Nat)
  /-- 44 R136: one character. -/
  | putchar (ch : Byte)
  /-- 44 R144: the glyph cell width. -/
  | getfw
  /-- 44 R145: the glyph cell height. -/
  | getfh
deriving DecidableEq, Repr

end Sys2Proof
end

