-- ==== Sys2Proof/WellFormed.lean ====
section
/-! DEFINITION. WellFormed.lean: the operand values a command word can carry (30_encoding R65). No well-formed operand
makes an operation illegal (R68). -/

namespace Sys2Proof

/-- The range of `s16` (00_scope R8). -/
def isS16 (x : Int) : Bool := decide (-32768 ≤ x) && decide (x ≤ 32767)

/-- The range of `u16` (00_scope R8). -/
def isU16 (n : Nat) : Bool := decide (n < 65536)

/-- Every operand lies in the range of the field it is read from (30_encoding R65). -/
def Instr.wellFormed : Instr → Bool
  | .init => true
  | .setorient o => isU16 o
  | .getw => true
  | .geth => true
  | .packrgb _ _ _ => true
  | .setmask l r t b => isS16 l && isS16 r && isS16 t && isS16 b
  | .scrolldef _ _ _ => true
  | .scrollstart _ => true
  | .rectfill l r t b _ => isS16 l && isS16 r && isS16 t && isS16 b
  | .rect l r t b _ => isS16 l && isS16 r && isS16 t && isS16 b
  | .blt l r t b _ => isS16 l && isS16 r && isS16 t && isS16 b
  | .moveto x y => isS16 x && isS16 y
  | .lineto x y _ => isS16 x && isS16 y
  | .line x1 y1 x2 y2 _ => isS16 x1 && isS16 y1 && isS16 x2 && isS16 y2
  | .fontface _ => true
  | .fontcolor _ => true
  | .locate col row => isU16 col && isU16 row
  | .putchar _ => true
  | .getfw => true
  | .getfh => true

end Sys2Proof
end

