-- ==== Sys2Proof/Decode.lean ====
section
/-! DEFINITION. Decode.lean: the command word's fields, the decoder (total on all 2^104 words), the encoder, the host's
`decodeTableWord`, and the assembler's pseudo-operations (spec 30_encoding R63 to R73). -/

namespace Sys2Proof

/-- OPC, `cmd[103:96]` (30 R63). -/
def fieldOpc (w : CmdWord) : Byte := w.extractLsb' 96 8

/-- A, `cmd[95:80]`. -/
def fieldA (w : CmdWord) : Half := w.extractLsb' 80 16

/-- B, `cmd[79:64]`. -/
def fieldB (w : CmdWord) : Half := w.extractLsb' 64 16

/-- C, `cmd[63:48]`. -/
def fieldC (w : CmdWord) : Half := w.extractLsb' 48 16

/-- D, `cmd[47:32]`. -/
def fieldD (w : CmdWord) : Half := w.extractLsb' 32 16

/-- E, `cmd[31:0]`. -/
def fieldE (w : CmdWord) : BitVec 32 := w.extractLsb' 0 32

/-- `u8(f[7:0])` of a 16-bit field (30 R65). -/
def lowByte (f : Half) : Byte := f.extractLsb' 0 8

/-- `color = E[15:0]` (30 R65). -/
def colourOf (e : BitVec 32) : Colour := e.extractLsb' 0 16

/-- What a command word stands for: an operation, or a reserved opcode, named by its OPC byte (30 R67). -/
inductive Decoded where
  | instr (i : Instr)
  | reserved (opc : Byte)
deriving DecidableEq, Repr

/-- The decoder (30 R73: OPC alone selects the operation; R64, R65 read the operands; R67 otherwise). -/
def decode (w : CmdWord) : Decoded :=
  let a := fieldA w
  let b := fieldB w
  let c := fieldC w
  let d := fieldD w
  let e := fieldE w
  match (fieldOpc w).toNat with
  | 0x01 => .instr .init
  | 0x02 => .instr (.setorient a.toNat)
  | 0x03 => .instr .getw
  | 0x04 => .instr .geth
  | 0x05 => .instr (.packrgb (lowByte a) (lowByte b) (lowByte c))
  | 0x10 => .instr (.setmask a.toInt b.toInt c.toInt d.toInt)
  | 0x20 => .instr (.scrolldef a b c)
  | 0x21 => .instr (.scrollstart a)
  | 0x30 => .instr (.rectfill a.toInt b.toInt c.toInt d.toInt (colourOf e))
  | 0x31 => .instr (.rect a.toInt b.toInt c.toInt d.toInt (colourOf e))
  | 0x32 => .instr (.blt a.toInt b.toInt c.toInt d.toInt e)
  | 0x40 => .instr (.moveto a.toInt b.toInt)
  | 0x41 => .instr (.lineto a.toInt b.toInt (colourOf e))
  | 0x42 => .instr (.line a.toInt b.toInt c.toInt d.toInt (colourOf e))
  | 0x50 => .instr (.fontface e)
  | 0x51 => .instr (.fontcolor e)
  | 0x52 => .instr (.locate a.toNat b.toNat)
  | 0x53 => .instr (.putchar (lowByte a))
  | 0x54 => .instr .getfw
  | 0x55 => .instr .getfh
  | _ => .reserved (fieldOpc w)

/-- `{OPC, A, B, C, D, E}` as one 104-bit word (30 R63). -/
def packWord (opc : Byte) (a b c d : Half) (e : BitVec 32) : CmdWord := opc ++ a ++ b ++ c ++ d ++ e

/-- The OPC of an operation (30 R62). -/
def Instr.opcode : Instr → Byte
  | .init => 0x01
  | .setorient _ => 0x02
  | .getw => 0x03
  | .geth => 0x04
  | .packrgb _ _ _ => 0x05
  | .setmask _ _ _ _ => 0x10
  | .scrolldef _ _ _ => 0x20
  | .scrollstart _ => 0x21
  | .rectfill _ _ _ _ _ => 0x30
  | .rect _ _ _ _ _ => 0x31
  | .blt _ _ _ _ _ => 0x32
  | .moveto _ _ => 0x40
  | .lineto _ _ _ => 0x41
  | .line _ _ _ _ _ => 0x42
  | .fontface _ => 0x50
  | .fontcolor _ => 0x51
  | .locate _ _ => 0x52
  | .putchar _ => 0x53
  | .getfw => 0x54
  | .getfh => 0x55

/-- An `s16` operand as its field. -/
def s16Field (x : Int) : Half := BitVec.ofInt 16 x

/-- A `u16` operand as its field. -/
def u16Field (n : Nat) : Half := BitVec.ofNat 16 n

/-- The assembler's encoding of an operation: its operands in format order, unused fields zero (30 R64, R66, R70). -/
def encode (i : Instr) : CmdWord :=
  match i with
  | .init => packWord i.opcode 0 0 0 0 0
  | .setorient o => packWord i.opcode (u16Field o) 0 0 0 0
  | .getw => packWord i.opcode 0 0 0 0 0
  | .geth => packWord i.opcode 0 0 0 0 0
  | .packrgb r g b => packWord i.opcode (r.setWidth 16) (g.setWidth 16) (b.setWidth 16) 0 0
  | .setmask l r t b => packWord i.opcode (s16Field l) (s16Field r) (s16Field t) (s16Field b) 0
  | .scrolldef x y z => packWord i.opcode x y z 0 0
  | .scrollstart x => packWord i.opcode x 0 0 0 0
  | .rectfill l r t b c =>
      packWord i.opcode (s16Field l) (s16Field r) (s16Field t) (s16Field b) (c.setWidth 32)
  | .rect l r t b c =>
      packWord i.opcode (s16Field l) (s16Field r) (s16Field t) (s16Field b) (c.setWidth 32)
  | .blt l r t b src => packWord i.opcode (s16Field l) (s16Field r) (s16Field t) (s16Field b) src
  | .moveto x y => packWord i.opcode (s16Field x) (s16Field y) 0 0 0
  | .lineto x y c => packWord i.opcode (s16Field x) (s16Field y) 0 0 (c.setWidth 32)
  | .line x1 y1 x2 y2 c =>
      packWord i.opcode (s16Field x1) (s16Field y1) (s16Field x2) (s16Field y2) (c.setWidth 32)
  | .fontface base => packWord i.opcode 0 0 0 0 base
  | .fontcolor p => packWord i.opcode 0 0 0 0 p
  | .locate col row => packWord i.opcode (u16Field col) (u16Field row) 0 0 0
  | .putchar ch => packWord i.opcode (ch.setWidth 16) 0 0 0 0
  | .getfw => packWord i.opcode 0 0 0 0 0
  | .getfh => packWord i.opcode 0 0 0 0 0

/-- A table row's bits as a command word: bit 0 of `w` is `cmd[0]`, every bit above `nbits` is 0. -/
def tableWord (nbits w : Nat) : CmdWord := BitVec.ofNat 104 (w % 2 ^ nbits)

/-- The operation the decoder reads from a word of spec/opcode_table.json (none for a reserved opcode). -/
def decodeTableWord (nbits w : Nat) : Option Instr :=
  match decode (tableWord nbits w) with
  | .instr i => some i
  | .reserved _ => none

/-- `rgb565(r, g, b)` = `{ r[7:3], g[7:2], b[7:3] }` (45_lifecycle R162): the assembler's `RGB` (30 R71) and the value
PACKRGB answers. -/
def rgb565 (r g b : Byte) : Colour := r.extractLsb' 3 5 ++ g.extractLsb' 2 6 ++ b.extractLsb' 3 5

/-- The pseudo-operation `CLS` (30 R71). -/
def Pseudo.cls : Instr := .putchar 0x0C

/-- The pseudo-operation `PUTS` (30 R71): one PUTCHAR per byte of the string, in order. -/
def Pseudo.puts (bytes : List Byte) : List Instr := bytes.map .putchar

/-- The pseudo-operation `FONTCOLOR2 bg, fg` (30 R71): `FONTCOLOR ((bg << 16) | fg)`. -/
def Pseudo.fontcolor2 (bg fg : Colour) : Instr := .fontcolor ((bg.setWidth 32 <<< 16) ||| fg.setWidth 32)

end Sys2Proof
end

