-- ==== Sys2Proof/Config.lean ====
section
/-! DEFINITION. Config.lean: the configuration record `Cfg` of spec 00_scope R5, the constants the source fixes, and the
free values of the model. -/

namespace Sys2Proof

/-- One entry of INIT_TABLE (00_scope R5): a command byte, its data bytes, and a wait in time units (0 for none). -/
structure InitEntry where
  cmd  : Byte
  data : List Byte
  wait : Nat
deriving DecidableEq, Repr, Inhabited

/-- The configuration record of 00_scope R5. Every bound of R5 holds by construction: the panel is kept as the last
column and the last row (1 <= PANEL_W, PANEL_H <= 32768), the two reset delays as what exceeds their minima. Every value
the spec leaves OPEN is a field, so a claim for every state holds for every configuration. -/
structure Cfg where
  /-- PANEL_W - 1. -/
  lastCol : Fin 32768
  /-- PANEL_H - 1. -/
  lastRow : Fin 32768
  /-- CMD_CASET, set the column window. -/
  caset : Byte
  /-- CMD_PASET, set the page window. -/
  paset : Byte
  /-- CMD_RAMWR, begin pixel write. -/
  ramwr : Byte
  /-- CMD_MADCTL, the scan-direction register. -/
  madctl : Byte
  /-- ORIENT_REG_VALUE[0..3]. -/
  orientReg : Vector Byte 4
  /-- CMD_DISPON, the panel-on command. -/
  dispon : Byte
  /-- CMD_VSCRDEF. -/
  vscrdef : Byte
  /-- CMD_VSCRSADD. -/
  vscrsadd : Byte
  /-- INIT_TABLE. -/
  initTable : List InitEntry
  /-- T_RESET_LOW - 10. -/
  resetLowExtra : Nat
  /-- T_RESET_WAIT - 150. -/
  resetWaitExtra : Nat
  /-- TIME_UNIT: the length of one time unit; no rule reads it (GK4; log 11). -/
  timeUnit : Nat
  /-- FONT_SIG[0..5]. -/
  fontSig : Vector Byte 6
  /-- DEFAULT_FONT_BASE. -/
  defaultFontBase : Addr
deriving DecidableEq, Repr, Inhabited

/-- PANEL_W, the native panel width (00_scope R5). -/
def Cfg.panelW (c : Cfg) : Nat := c.lastCol.val + 1

/-- PANEL_H, the native panel height (00_scope R5). -/
def Cfg.panelH (c : Cfg) : Nat := c.lastRow.val + 1

/-- T_RESET_LOW >= 10 (00_scope R5, 45 R152). -/
def Cfg.resetLow (c : Cfg) : Nat := 10 + c.resetLowExtra

/-- T_RESET_WAIT >= 150 (00_scope R5, 45 R152). -/
def Cfg.resetWait (c : Cfg) : Nat := 150 + c.resetWaitExtra

/-- FONT_START_CHAR, the code point of glyph 0 (00_scope R5). -/
def Config.fontStartChar : Nat := 0x20

/-- FONT_OFF_W, the offset of the width byte in a font table (00_scope R5, 20_memory R43). -/
def Config.fontOffW : Nat := 14

/-- FONT_OFF_H, the offset of the height byte in a font table. -/
def Config.fontOffH : Nat := 15

/-- FONT_OFF_DATA, the offset of the bitmap data in a font table. -/
def Config.fontOffData : Nat := 17

/-- BLACK, the colour of INIT's fill and of form feed (00_scope R5, D32). -/
def Config.black : Colour := 0x0000

/-- The configuration of the machine at reset: some record of type `Cfg`, not known to any proof (log 1). -/
opaque Config.platform : Cfg

/-- The free values: what a register holds after `rst` where 10_state R33 says "unspecified" (U7, U8, U18; log 3).
`w` is the register's width, `draw` the number of the draw. -/
opaque Config.unspecified (w draw : Nat) : BitVec w

end Sys2Proof
end

