-- ==== Sys2Proof/Machine/State.lean ====
section
/-! DEFINITION. Machine/State.lean: the bus event alphabet (41 R92), the interface lines (41 R93), the host's moves (30 R60,
70 R194), the state of the block (10_state R10 to R35), the outcomes a step can end in, and the state after reset (R33). -/

namespace Sys2Proof.Machine

/-- The event alphabet of the bus trace: these eight forms and no others (41 R92). -/
inductive BusEvent where
  /-- `SEL`: the bus is selected. -/
  | sel
  /-- `REL`: the bus is released. -/
  | rel
  /-- `C(b)`: one command byte, with the data/command line low around it. -/
  | cmd (b : Byte)
  /-- `D8(b)`: one data byte, data/command line high. -/
  | data (b : Byte)
  /-- `RST(v)`: the panel reset line is driven to level `v`. -/
  | rst (v : Bool)
  /-- `WAIT(n)`: at least `n` time units pass before the next event. -/
  | wait (n : Nat)
  /-- `GPIO_SETUP`: the three lines are made outputs. -/
  | gpioSetup
  /-- `BUS_CONFIG`: the transport's clock and mode are configured. -/
  | busConfig
deriving DecidableEq, Repr

/-- The levels of the three lines the block drives (41 R93): `sel` (SEL, 10_state R22), `dc` (DC, R23), `rstn` (RSTN,
R24). -/
structure Lines where
  sel  : Bool
  dc   : Bool
  rstn : Bool
deriving DecidableEq, Repr

/-- What one event does to the lines, in order (41 R93). -/
inductive LineAction where
  | sel (level : Bool)
  | dc (level : Bool)
  | rstn (level : Bool)
  /-- The transport transfers one byte, at the level `dc` then has. -/
  | transfer (b : Byte)
deriving DecidableEq, Repr

/-- A rectangle of signed coordinates, `l..r` by `t..b`, ends included (40 R81, 41 R96). -/
structure Rect where
  l : Int
  r : Int
  t : Int
  b : Int
deriving DecidableEq, Repr

/-- A move of the host (30 R60, 70 R194; log 4). -/
inductive HostMove where
  /-- Present the command word (`cmd_valid = 1`) and hold it until it is accepted. -/
  | issue (w : CmdWord)
  /-- Present nothing for one step. -/
  | idle
  /-- Assert `rst` for one step. -/
  | rst
deriving DecidableEq, Repr

/-- What the next step is, by the input pins and BUSY. -/
inductive Action where
  /-- `rst` is asserted (70 R186). -/
  | blockReset
  /-- BUSY = 1: the operation in progress goes on (10_state R28). -/
  | drain
  /-- `cmd_valid = 1` and `cmd_ready = 1`: the word is accepted (30 R60). -/
  | accept (w : CmdWord)
  /-- Idle, and no word is presented. -/
  | quiet
deriving DecidableEq, Repr

/-- The state of the block and of what it is connected to. All of it is plain data. -/
structure State where
  /-- The configuration record (00_scope R5); no step changes it (log 1). -/
  cfg : Cfg
  /-- FONT space (20_memory R41); no step changes it (R45, R57). -/
  font : List Host.Cell
  /-- SRC space (20_memory R42), 16-bit words; no step changes it (R45, R57). -/
  src : Mem 16
  /-- ORIENT (10_state R11). -/
  orient : BitVec 2
  /-- MASK_L (10_state R14). -/
  maskL : Half
  /-- MASK_R (10_state R14). -/
  maskR : Half
  /-- MASK_T (10_state R14). -/
  maskT : Half
  /-- MASK_B (10_state R14). -/
  maskB : Half
  /-- PEN_X (10_state R15). -/
  penX : Half
  /-- PEN_Y (10_state R15). -/
  penY : Half
  /-- CUR_X (10_state R16). -/
  curX : Half
  /-- CUR_Y (10_state R16). -/
  curY : Half
  /-- GCOLOR (10_state R17): background in the high half, foreground in the low half. -/
  gcolor : BitVec 32
  /-- FONT_VALID (10_state R18). -/
  fontValid : Bool
  /-- FONT_BASE (10_state R19). -/
  fontBase : Addr
  /-- FW (10_state R20). -/
  fw : Byte
  /-- FH (10_state R20). -/
  fh : Byte
  /-- SEL, DC and RSTN (10_state R22 to R24), which are the lines of 41 R93. -/
  lines : Lines
  /-- BUSY (10_state R25). -/
  busy : Bool
  /-- RESP (10_state R26). -/
  resp : Half
  /-- The signal `resp_valid` (30 R61; log 6). -/
  respValid : Bool
  /-- The model's own: the operation in progress has written RESP (log 6). -/
  respPending : Bool
  /-- The operand latch (10_state R27). -/
  latch : CmdWord
  /-- Q, the pending-event queue, next event first (10_state R28). -/
  queue : List BusEvent
  /-- The bus trace (00_scope R7), newest event first (log 8); `State.trace` gives it in emission order. -/
  emitted : List BusEvent
  /-- The response stream (00_scope R7), newest first (log 8); `State.responses` gives it in order. -/
  responded : List Half
  /-- The host's moves still to come (log 4). -/
  host : List HostMove
  /-- The model's own: how many free values have been drawn (log 3). -/
  draws : Nat
deriving DecidableEq, Repr

/-- The faults: none. "The block raises no synchronous exception of any kind" (60 R165), so no constructor exists and no
step can answer `.fault`. -/
inductive Fault where
deriving DecidableEq, Repr

/-- The refusals. -/
inductive Refusal where
  /-- Raised by an arm of `exec` whose operation has no meaning yet (safe: nothing is claimed of it); no arm raises it. -/
  | notModelled (mnemonic : String)
deriving DecidableEq, Repr

/-- The idle levels of the lines: released, data, reset not asserted (70 R186). -/
def Lines.idle : Lines := { sel := false, dc := true, rstn := true }

/-- The state after `rst` (10_state R33): the values of the column "after rst"; where it says "unspecified", a free value
(log 3); FONT and SRC list nothing (log 2), nothing has been emitted, and the host has no move yet (log 4). -/
def State.reset : State where
  cfg := Config.platform
  font := []
  src := []
  orient := 0
  maskL := 0
  maskR := BitVec.ofNat 16 (Config.platform.panelW - 1)
  maskT := 0
  maskB := BitVec.ofNat 16 (Config.platform.panelH - 1)
  penX := 0
  penY := 0
  curX := 0
  curY := 0
  gcolor := Config.unspecified 32 0
  fontValid := false
  fontBase := Config.unspecified 32 1
  fw := 0
  fh := 0
  lines := Lines.idle
  busy := false
  resp := Config.unspecified 16 2
  respValid := false
  respPending := false
  latch := Config.unspecified 104 3
  queue := []
  emitted := []
  responded := []
  host := []
  draws := 4

end Sys2Proof.Machine
end

