-- ==== Sys2Proof/Machine/Operands.lean ====
section
/-! DEFINITION. Machine/Operands.lean: the arithmetic notation of spec 00_scope R8, intervals, and rectangles as sets of
pixels. -/

namespace Sys2Proof.Machine

/-- `wrap16(n)`: the 16-bit register value congruent to `n` modulo 2^16 (00_scope R8). -/
def wrap16 (n : Int) : Half := BitVec.ofInt 16 n

/-- `mod32(n)`: the 32-bit address congruent to `n` modulo 2^32 (00_scope R8). -/
def mod32 (n : Int) : Addr := BitVec.ofInt 32 n

/-- `ceil8(w) = floor((w + 7) / 8)` (00_scope R8). -/
def ceil8 (w : Nat) : Nat := (w + 7) / 8

/-- `tdiv(a, b)`: division rounded toward zero (00_scope R8). -/
def tdiv (a b : Int) : Int := if 0 ≤ a then a / b else -((-a) / b)

/-- The integers `a, a+1, ..., b` in order, none when `a > b` (00_scope R8, intervals). -/
def interval (a b : Int) : List Int := (List.range (b - a + 1).toNat).map fun i => a + Int.ofNat i

/-- The number of pixels of a rectangle, `(r - l + 1) * (b - t + 1)` (41 R97, 90 C1). -/
def Rect.count (q : Rect) : Nat := (q.r - q.l + 1).toNat * (q.b - q.t + 1).toNat

/-- The rectangle contains the pixel `(x, y)`. -/
def Rect.has (q : Rect) (x y : Int) : Bool :=
  decide (q.l ≤ x) && decide (x ≤ q.r) && decide (q.t ≤ y) && decide (y ≤ q.b)

/-- The pixels of a rectangle in row-major order, top to bottom and left to right (20_memory R48). -/
def Rect.points (q : Rect) : List (Int × Int) :=
  (interval q.t q.b).flatMap fun y => (interval q.l q.r).map fun x => (x, y)

/-- The most significant byte of a 16-bit value, `w[15:8]`. -/
def highByte (w : Half) : Byte := w.extractLsb' 8 8

end Sys2Proof.Machine
end

