-- ==== Sys2Proof/Machine/Flags.lean ====
section
/-! DEFINITION. Machine/Flags.lean: the one-bit interface state (spec 10_state section 4 "Flags and interface lines"): SEL,
DC and RSTN as the lines of 41 R93, and the handshake signals that are functions of BUSY and of the host's moves (30 R60).
No operation sets a condition code (10_state R25), so there is no flag computation of the arithmetic kind. -/

namespace Sys2Proof.Machine

/-- What an event does at the pins, in order (41 R93). -/
def BusEvent.actions : BusEvent → List LineAction
  | .sel => [.sel true]
  | .rel => [.sel false]
  | .cmd b => [.dc false, .transfer b, .dc true]
  | .data b => [.transfer b]
  | .rst v => [.rstn v]
  | .wait _ => []
  | .gpioSetup => []
  | .busConfig => []

/-- The lines after one action. -/
def Lines.act (x : Lines) : LineAction → Lines
  | .sel v => { x with sel := v }
  | .dc v => { x with dc := v }
  | .rstn v => { x with rstn := v }
  | .transfer _ => x

/-- The lines after one event. -/
def Lines.after (x : Lines) (e : BusEvent) : Lines := e.actions.foldl Lines.act x

/-- The lines after a list of events. -/
def Lines.afterAll (x : Lines) (es : List BusEvent) : Lines := es.foldl Lines.after x

/-- The bytes an event transfers, each with the level of the data/command line at that moment. -/
def Lines.transfers (x : Lines) : List LineAction → List (Bool × Byte)
  | [] => []
  | .transfer b :: as => (x.dc, b) :: x.transfers as
  | .sel v :: as => (x.act (.sel v)).transfers as
  | .dc v :: as => (x.act (.dc v)).transfers as
  | .rstn v :: as => (x.act (.rstn v)).transfers as

/-- SEL (10_state R22). -/
def State.selected (s : State) : Bool := s.lines.sel

/-- `cmd_ready = not BUSY` (10_state R25, 30 R60). -/
def State.cmdReady (s : State) : Bool := !s.busy

/-- `cmd_valid`: the host presents a command word (30 R60). -/
def State.cmdValid (s : State) : Bool :=
  match s.host with
  | .issue _ :: _ => true
  | _ => false

/-- `rst`: the host asserts block reset (70 R186). -/
def State.rstAsserted (s : State) : Bool :=
  match s.host with
  | .rst :: _ => true
  | _ => false

/-- The block is idle when BUSY = 0 (10_state R31). -/
def State.isIdle (s : State) : Bool := !s.busy

end Sys2Proof.Machine
end

