-- ==== Sys2Proof/Machine/Ops.lean ====
section
/-! DEFINITION. Machine/Ops.lean: the named operations over the memory spaces and the registers: reads of FONT and SRC, the
logical screen, emitting events, responding, `drop` (the block's only reaction to an invalid request: there is no exception
to take and none to return from, 60 R165, R170, R171), and writes of the mask, the pen and the cursor. -/

namespace Sys2Proof.Machine

/-- The value a space holds at an address; an unlisted location reads as zero (log 2). -/
def Mem.read {w : Nat} (m : Mem w) (a : Nat) : BitVec w :=
  match m with
  | [] => 0
  | (k, v) :: rest => if k = a then v else Mem.read rest a

/-- Place a value at an address, keeping the canonical form. The block itself writes no memory (20_memory R57): this is for
whoever places a font table or a bitmap before a run (R52, "left to the platform"). -/
def Mem.write {w : Nat} (m : Mem w) (a : Nat) (v : BitVec w) : Mem w :=
  match m with
  | [] => if v = 0 then [] else [(a, v)]
  | (k, u) :: rest =>
    if a < k then (if v = 0 then (k, u) :: rest else (a, v) :: (k, u) :: rest)
    else if a = k then (if v = 0 then rest else (a, v) :: rest)
    else (k, u) :: Mem.write rest a v

/-- Every listed address is at least `lo` and below 2^32, addresses strictly rise, and no listed value is zero. -/
def Mem.wfFrom {w : Nat} (lo : Nat) (m : Mem w) : Bool :=
  match m with
  | [] => true
  | (k, v) :: rest => decide (lo ≤ k) && decide (k < 2 ^ 32) && decide (v ≠ 0) && Mem.wfFrom (k + 1) rest

/-- The canonical form of a space of 2^32 locations (20_memory R41, R42). -/
def Mem.wf {w : Nat} (m : Mem w) : Bool := Mem.wfFrom 0 m

/-- `Font[mod32(a)]` (00_scope R8, 20_memory R41, R56). -/
def State.fontAt (s : State) (a : Int) : Byte := Mem.read s.font (mod32 a).toNat

/-- `Src[mod32(a)]` (00_scope R8, 20_memory R42, R56). -/
def State.srcAt (s : State) (a : Int) : Half := Mem.read s.src (mod32 a).toNat

/-- `W`, the logical width (10_state R13). -/
def State.w (s : State) : Int := if s.orient.getLsbD 0 then s.cfg.panelH else s.cfg.panelW

/-- `H`, the logical height (10_state R13). -/
def State.h (s : State) : Int := if s.orient.getLsbD 0 then s.cfg.panelW else s.cfg.panelH

/-- The logical screen, `[0, W-1] x [0, H-1]` (00_scope R9). -/
def State.screen (s : State) : Rect := { l := 0, r := s.w - 1, t := 0, b := s.h - 1 }

/-- The mask as a rectangle of integers (10_state R14). -/
def State.mask (s : State) : Rect :=
  { l := s.maskL.toInt, r := s.maskR.toInt, t := s.maskT.toInt, b := s.maskB.toInt }

/-- `BW = ceil8(FW)`, the glyph row stride in bytes (10_state R21). -/
def State.bw (s : State) : Nat := ceil8 s.fw.toNat

/-- `GSTRIDE = BW * FH`, the glyph size in bytes (10_state R21). -/
def State.gstride (s : State) : Nat := s.bw * s.fh.toNat

/-- The bus trace in emission order (00_scope R7). -/
def State.trace (s : State) : List BusEvent := s.emitted.reverse

/-- The response stream in order (00_scope R7). -/
def State.responses (s : State) : List Half := s.responded.reverse

/-- `emit e_1; ...; emit e_k` inside an operation: the events join Q, in order (00_scope R8, 10_state R28). -/
def State.emit (s : State) (es : List BusEvent) : State := { s with queue := s.queue ++ es }

/-- `respond v`: RESP takes the value, which joins the response stream (00_scope R8, 10_state R26). -/
def State.respond (s : State) (v : Half) : State :=
  { s with resp := v, responded := v :: s.responded, respPending := true }

/-- `drop` ends the operation: nothing further is emitted and no further register is written (00_scope R8, 60 R166,
R170). -/
def State.drop (s : State) : State := s

/-- Write the four MASK registers (10_state R14). -/
def State.setMask (s : State) (q : Rect) : State :=
  { s with maskL := wrap16 q.l, maskR := wrap16 q.r, maskT := wrap16 q.t, maskB := wrap16 q.b }

/-- Write the pen (10_state R15). -/
def State.setPen (s : State) (x y : Int) : State := { s with penX := wrap16 x, penY := wrap16 y }

/-- Write the cursor, each coordinate wrapped to 16 bits (10_state R16, D20). -/
def State.setCur (s : State) (x y : Int) : State := { s with curX := wrap16 x, curY := wrap16 y }

/-- Write ORIENT and what always goes with it: the mask becomes the full screen of the new orientation (10_state R14,
45 R151, R156). -/
def State.orientTo (s : State) (o : BitVec 2) : State :=
  let s := { s with orient := o }
  s.setMask s.screen

/-- Pen and cursor to the origin (45 R151 steps 8 and 9, R156). -/
def State.home (s : State) : State := (s.setPen 0 0).setCur 0 0

end Sys2Proof.Machine
end

