-- ==== Sys2Proof/Machine/Bus.lean ====
section
/-! DEFINITION. Machine/Bus.lean: serial_protocol_fsm and display_address_sequencer (spec 41_addressing_and_bus): the event
sequences WIN, the window transaction, PLOT, FILL and CMDX, and the operations SCROLLDEF and SCROLLSTART. -/

namespace Sys2Proof.Machine

/-- `D16(w)`: most significant byte first (41 R94). -/
def d16 (w : Half) : List BusEvent := [.data (highByte w), .data (lowByte w)]

/-- `WIN(l, r, t, b)`: the 12-event window-open sequence (41 R96). -/
def win (c : Cfg) (q : Rect) : List BusEvent :=
  [.sel, .cmd c.caset] ++ d16 (wrap16 q.l) ++ d16 (wrap16 q.r)
    ++ [.cmd c.paset] ++ d16 (wrap16 q.t) ++ d16 (wrap16 q.b) ++ [.cmd c.ramwr]

/-- A window transaction: WIN, the pixel words, REL (41 R97). -/
def windowTx (c : Cfg) (q : Rect) (words : List Colour) : List BusEvent :=
  win c q ++ words.flatMap d16 ++ [.rel]

/-- `FILL(l, r, t, b, c)`: the solid-colour transaction (41 R102). -/
def fill (c : Cfg) (q : Rect) (colour : Colour) : List BusEvent :=
  windowTx c q (List.replicate q.count colour)

/-- `PLOT(x, y, c)`: the one-pixel transaction (41 R101). -/
def plot (c : Cfg) (x y : Int) (colour : Colour) : List BusEvent :=
  windowTx c { l := x, r := x, t := y, b := y } [colour]

/-- `CMDX(cmd, data)`: the plain command transaction (41 R103). -/
def cmdx (cmd : Byte) (data : List Byte) : List BusEvent :=
  [.sel, .cmd cmd] ++ data.map .data ++ [.rel]

/-- SCROLLDEF (41 R104). -/
def execScrolldef (topFixed scrollArea bottomFixed : Half) (s : State) : Host.Outcome State Fault Refusal :=
  .next (s.emit ([.sel, .cmd s.cfg.vscrdef] ++ d16 topFixed ++ d16 scrollArea ++ d16 bottomFixed ++ [.rel]))

/-- SCROLLSTART (41 R105). -/
def execScrollstart (offset : Half) (s : State) : Host.Outcome State Fault Refusal :=
  .next (s.emit ([.sel, .cmd s.cfg.vscrsadd] ++ d16 offset ++ [.rel]))

end Sys2Proof.Machine
end

