-- ==== Sys2Proof/Machine/Clip.lean ====
section
/-! DEFINITION. Machine/Clip.lean: coordinate_clipper (spec 40_clip_and_mask): ClipRect, InMask and SETMASK. -/

namespace Sys2Proof.Machine

/-- `ClipRect(l, r, t, b)` (40 R81): none when the request is inverted or misses the mask, else each edge clamped. -/
def State.clipRect (s : State) (q : Rect) : Option Rect :=
  let m := s.mask
  if q.l > q.r ∨ q.t > q.b then none
  else if q.r < m.l ∨ q.l > m.r ∨ q.b < m.t ∨ q.t > m.b then none
  else some { l := max q.l m.l, r := min q.r m.r, t := max q.t m.t, b := min q.b m.b }

/-- `InMask(x, y)` (40 R82). -/
def State.inMask (s : State) (x y : Int) : Bool := s.mask.has x y

/-- The body of SETMASK (40 R84). -/
def State.setmaskBody (s : State) (left right top bottom : Int) : State :=
  if left < 0 ∨ right > s.w - 1 ∨ top < 0 ∨ bottom > s.h - 1 then s.drop
  else if left > right ∨ top > bottom then s.drop
  else s.setMask { l := left, r := right, t := top, b := bottom }

/-- SETMASK (40 R84). -/
def execSetmask (left right top bottom : Int) (s : State) : Host.Outcome State Fault Refusal :=
  .next (s.setmaskBody left right top bottom)

end Sys2Proof.Machine
end

