-- ==== Sys2Proof/Machine/Rects.lean ====
section
/-! DEFINITION. Machine/Rects.lean: the rectangle primitives RECTFILL, RECT and BLT (spec 42_rect_primitives). -/

namespace Sys2Proof.Machine

/-- The body of RECTFILL (42 R112), which RECT and INIT call. -/
def State.rectfillBody (s : State) (q : Rect) (colour : Colour) : State :=
  match s.clipRect q with
  | none => s.drop
  | some w => s.emit (fill s.cfg w colour)

/-- RECTFILL (42 R112). -/
def execRectfill (left right top bottom : Int) (color : Colour) (s : State) : Host.Outcome State Fault Refusal :=
  .next (s.rectfillBody { l := left, r := right, t := top, b := bottom } color)

/-- The four edges of RECT in their order: left column, right column, top row, bottom row (42 R113, D13). -/
def Rect.edges (q : Rect) : List Rect :=
  [{ l := q.l, r := q.l, t := q.t, b := q.b }, { l := q.r, r := q.r, t := q.t, b := q.b },
   { l := q.l, r := q.r, t := q.t, b := q.t }, { l := q.l, r := q.r, t := q.b, b := q.b }]

/-- The body of RECT (42 R113): a `drop` inside a called RECTFILL ends that call only. -/
def State.rectBody (s : State) (q : Rect) (colour : Colour) : State :=
  if q.l > q.r ∨ q.t > q.b then s.drop
  else q.edges.foldl (fun s e => s.rectfillBody e colour) s

/-- RECT (42 R113). -/
def execRect (left right top bottom : Int) (color : Colour) (s : State) : Host.Outcome State Fault Refusal :=
  .next (s.rectBody { l := left, r := right, t := top, b := bottom } color)

/-- The source word that belongs to the destination pixel `(x, y)` of a blit: the index is taken in the unclipped
rectangle (42 R114, 20_memory R47). -/
def State.bltWord (s : State) (q : Rect) (base : Addr) (x y : Int) : Colour :=
  s.srcAt (base.toNat + (y - q.t) * (q.r - q.l + 1) + (x - q.l))

/-- The body of BLT (42 R114). -/
def State.bltBody (s : State) (q : Rect) (base : Addr) : State :=
  match s.clipRect q with
  | none => s.drop
  | some w => s.emit (windowTx s.cfg w (w.points.map fun p => s.bltWord q base p.1 p.2))

/-- BLT (42 R114). -/
def execBlt (left right top bottom : Int) (src : Addr) (s : State) : Host.Outcome State Fault Refusal :=
  .next (s.bltBody { l := left, r := right, t := top, b := bottom } src)

end Sys2Proof.Machine
end

