-- ==== Sys2Proof/Machine/Text.lean ====
section
/-! DEFINITION. Machine/Text.lean: font_bitmap_decoder (spec 44_text): GlyphBit, FONTFACE, FONTCOLOR, LOCATE, PUTCHAR, GETFW
and GETFH. -/

namespace Sys2Proof.Machine

/-- The FONT address of the byte that holds `GlyphBit(g, row, col)`, before `mod32` (44 R130, 20_memory R44). -/
def State.glyphAddr (s : State) (g : Int) (row col : Nat) : Int :=
  s.fontBase.toNat + Config.fontOffData + g * s.bw * s.fh.toNat + row * s.bw + col / 8

/-- `GlyphBit(g, row, col)`: the most significant bit of a byte is its leftmost pixel (44 R130). -/
def State.glyphBit (s : State) (g : Int) (row col : Nat) : Bool :=
  (s.fontAt (s.glyphAddr g row col)).getLsbD (7 - col % 8)

/-- The foreground colour, `GCOLOR[15:0]` (10_state R17). -/
def State.foreground (s : State) : Colour := s.gcolor.extractLsb' 0 16

/-- The background colour, `GCOLOR[31:16]` (10_state R17). -/
def State.background (s : State) : Colour := s.gcolor.extractLsb' 16 16

/-- The glyph index `g = ch - 0x20`, signed and unchecked (44 R138). -/
def glyphIndex (ch : Byte) : Int := ch.toNat - Config.fontStartChar

/-- The colour words of the glyph's upper left `w` columns and `h` rows, row by row (44 R136, R142). -/
def State.glyphWords (s : State) (g : Int) (w h : Nat) : List Colour :=
  (List.range h).flatMap fun row => (List.range w).map fun col =>
    if s.glyphBit g row col then s.foreground else s.background

/-- The six signature bytes at `base` equal FONT_SIG (44 R132, 20_memory R43). -/
def State.fontSigOk (s : State) (base : Addr) : Bool :=
  (List.finRange 6).all fun i => s.fontAt (base.toNat + i.val) == s.cfg.fontSig[i.val]

/-- The body of FONTFACE (44 R132), which INIT calls. -/
def State.fontfaceBody (s : State) (base : Addr) : State :=
  if s.fontSigOk base then
    { s with
      fontBase := base
      fw := s.fontAt (base.toNat + Config.fontOffW)
      fh := s.fontAt (base.toNat + Config.fontOffH)
      fontValid := true }
  else s.drop

/-- FONTFACE (44 R132). -/
def execFontface (base : Addr) (s : State) : Host.Outcome State Fault Refusal :=
  .next (s.fontfaceBody base)

/-- FONTCOLOR (44 R134). -/
def execFontcolor (packedBgFg : BitVec 32) (s : State) : Host.Outcome State Fault Refusal :=
  .next { s with gcolor := packedBgFg }

/-- LOCATE (44 R135). -/
def execLocate (col row : Nat) (s : State) : Host.Outcome State Fault Refusal :=
  .next (s.setCur (col * s.fw.toNat) (row * s.fh.toNat))

/-- `\n`: the cursor goes down by the cell height, then falls through to `\r` (44 R137). -/
def State.newline (s : State) : State := s.setCur 0 (s.curY.toInt + s.fh.toNat)

/-- `\r`: the cursor goes to column 0 (44 R137). -/
def State.carriageReturn (s : State) : State := { s with curX := 0 }

/-- `\b`: the cursor goes left by the cell width, clamped to 0 (44 R137). -/
def State.backspace (s : State) : State := { s with curX := wrap16 (max (s.curX.toInt - s.fw.toNat) 0) }

/-- `\f`: the whole logical screen is filled with black, whatever the mask, and the cursor goes to the origin (44 R137,
R141). -/
def State.formFeed (s : State) : State := (s.emit (fill s.cfg s.screen Config.black)).setCur 0 0

/-- The cursor lies on the logical screen (44 R139). -/
def State.cursorOnScreen (s : State) : Bool := s.screen.has s.curX.toInt s.curY.toInt

/-- `w' = min(FW, W - CUR_X)`, for a cursor on the screen (44 R141). -/
def State.glyphW (s : State) : Nat := min s.fw.toNat (s.w - s.curX.toInt).toNat

/-- `h' = min(FH, H - CUR_Y)`, for a cursor on the screen (44 R141). -/
def State.glyphH (s : State) : Nat := min s.fh.toNat (s.h - s.curY.toInt).toNat

/-- The window of the glyph at the cursor (44 R136). -/
def State.glyphWindow (s : State) : Rect :=
  { l := s.curX.toInt, r := s.curX.toInt + s.glyphW - 1, t := s.curY.toInt, b := s.curY.toInt + s.glyphH - 1 }

/-- A printable character: drop without a font (R139), with the cursor off the screen (R139) or with a zero-size cell
(R140); else draw the clipped glyph (R141, R142) and move the cursor right by the width drawn (R143). -/
def State.printGlyph (s : State) (ch : Byte) : State :=
  if !s.fontValid then s.drop
  else if !s.cursorOnScreen then s.drop
  else if s.glyphW = 0 ∨ s.glyphH = 0 then s.drop
  else
    { s.emit (windowTx s.cfg s.glyphWindow (s.glyphWords (glyphIndex ch) s.glyphW s.glyphH)) with
      curX := wrap16 (s.curX.toInt + s.glyphW) }

/-- The body of PUTCHAR (44 R136): control characters are intercepted before any font lookup (R137). -/
def State.putcharBody (s : State) (ch : Byte) : State :=
  if ch = 0x0A then s.newline
  else if ch = 0x0D then s.carriageReturn
  else if ch = 0x08 then s.backspace
  else if ch = 0x0C then s.formFeed
  else s.printGlyph ch

/-- PUTCHAR (44 R136). -/
def execPutchar (ch : Byte) (s : State) : Host.Outcome State Fault Refusal :=
  .next (s.putcharBody ch)

/-- GETFW (44 R144). -/
def execGetfw (s : State) : Host.Outcome State Fault Refusal :=
  .next (s.respond (s.fw.setWidth 16))

/-- GETFH (44 R145). -/
def execGetfh (s : State) : Host.Outcome State Fault Refusal :=
  .next (s.respond (s.fh.setWidth 16))

end Sys2Proof.Machine
end

