-- ==== Sys2Proof/Machine/Lifecycle.lean ====
section
/-! DEFINITION. Machine/Lifecycle.lean: INIT, SETORIENT, GETW, GETH and PACKRGB (spec 45_lifecycle). -/

namespace Sys2Proof.Machine

/-- Steps 1 to 3 of INIT: GPIO setup, bus configuration, the panel reset pulse (45 R151). -/
def resetPulse (c : Cfg) : List BusEvent :=
  [.gpioSetup, .busConfig, .rst false, .wait c.resetLow, .rst true, .wait c.resetWait]

/-- Step 4 of INIT: one command transaction per table entry, then a wait if the entry has one (45 R151). -/
def tableEvents (table : List InitEntry) : List BusEvent :=
  table.flatMap fun e => cmdx e.cmd e.data ++ (if e.wait > 0 then [.wait e.wait] else [])

/-- The body of INIT: the nine steps of 45 R151 in order. -/
def State.initBody (s : State) : State :=
  let s := s.emit (resetPulse s.cfg)
  let s := s.emit (tableEvents s.cfg.initTable)
  let s := s.orientTo 0
  let s := s.rectfillBody s.screen Config.black
  let s := s.emit (cmdx s.cfg.dispon [])
  let s := s.fontfaceBody s.cfg.defaultFontBase
  s.home

/-- INIT (45 R151). -/
def execInit (s : State) : Host.Outcome State Fault Refusal :=
  .next s.initBody

/-- The scan-direction register value of an orientation (10_state R12, 45 R156). -/
def Cfg.orientValue (c : Cfg) (o : BitVec 2) : Byte := c.orientReg[o.toNat]

/-- The body of SETORIENT (45 R156): `o > 3` drops; the current orientation is not special. -/
def State.setorientBody (s : State) (o : Nat) : State :=
  if o > 3 then s.drop
  else
    let v : BitVec 2 := BitVec.ofNat 2 o
    ((s.emit (cmdx s.cfg.madctl [Cfg.orientValue s.cfg v])).orientTo v).home

/-- SETORIENT (45 R156). -/
def execSetorient (o : Nat) (s : State) : Host.Outcome State Fault Refusal :=
  .next (s.setorientBody o)

/-- GETW (45 R159): `W[15:0]`. -/
def execGetw (s : State) : Host.Outcome State Fault Refusal :=
  .next (s.respond (wrap16 s.w))

/-- GETH (45 R160): `H[15:0]`. -/
def execGeth (s : State) : Host.Outcome State Fault Refusal :=
  .next (s.respond (wrap16 s.h))

/-- PACKRGB (45 R163). -/
def execPackrgb (r g b : Byte) (s : State) : Host.Outcome State Fault Refusal :=
  .next (s.respond (rgb565 r g b))

end Sys2Proof.Machine
end

