-- ==== Sys2Proof/Machine/Line.lean ====
section
/-! DEFINITION. Machine/Line.lean: line_rasterizer_dda (spec 43_line): DrawLine, MOVETO, LINETO and LINE. -/

namespace Sys2Proof.Machine

/-- The walk of the DDA: `count` steps from the major coordinate `major`, which moves by `dir`, and the 16.16 accumulator
`acc` of the minor coordinate, which grows by `inc`; each step gives (major, floor(acc / 65536)) (43 R121; the
arithmetic shift is PRESUMED, GK3, D14, log 21). -/
def ddaWalk (count : Nat) (major dir acc inc : Int) : List (Int × Int) :=
  match count with
  | 0 => []
  | n + 1 => (major, acc / 65536) :: ddaWalk n (major + dir) dir (acc + inc) inc

/-- `n = max(|dx|, |dy|)`: the line has `n + 1` steps (43 R121). -/
def lineN (x1 y1 x2 y2 : Int) : Nat := max (x2 - x1).natAbs (y2 - y1).natAbs

/-- The 16.16 increment of the minor coordinate: `tdiv(d_minor * 65536, n)`, 0 when `n = 0` (43 R121; the
division toward zero is PRESUMED, GK3, D14, log 21). -/
def lineInc (dMinor : Int) (n : Nat) : Int := if n = 0 then 0 else tdiv (dMinor * 65536) n

/-- The steps of DrawLine in order, each the point `(x, y)` (43 R121): the longer axis is major, ties go to x, the minor
coordinate starts with the half-step bias 32768. -/
def lineSteps (x1 y1 x2 y2 : Int) : List (Int × Int) :=
  let dx := x2 - x1
  let dy := y2 - y1
  let n := lineN x1 y1 x2 y2
  if dy.natAbs ≤ dx.natAbs then
    ddaWalk (n + 1) x1 dx.sign (y1 * 65536 + 32768) (lineInc dy n)
  else
    (ddaWalk (n + 1) y1 dy.sign (x1 * 65536 + 32768) (lineInc dx n)).map fun p => (p.2, p.1)

/-- The events of DrawLine: one PLOT for each step in the mask, in step order (43 R121, R123). -/
def State.lineEvents (s : State) (x1 y1 x2 y2 : Int) (colour : Colour) : List BusEvent :=
  ((lineSteps x1 y1 x2 y2).filter fun p => s.inMask p.1 p.2).flatMap fun p => plot s.cfg p.1 p.2 colour

/-- `DrawLine(x1, y1, x2, y2, c)` (43 R121). -/
def State.drawLine (s : State) (x1 y1 x2 y2 : Int) (colour : Colour) : State :=
  s.emit (s.lineEvents x1 y1 x2 y2 colour)

/-- MOVETO (43 R125). -/
def execMoveto (x y : Int) (s : State) : Host.Outcome State Fault Refusal :=
  .next (s.setPen x y)

/-- LINETO (43 R126): the line runs from the pen, and the pen moves whether or not a pixel was drawn. -/
def execLineto (x y : Int) (color : Colour) (s : State) : Host.Outcome State Fault Refusal :=
  .next ((s.drawLine s.penX.toInt s.penY.toInt x y color).setPen x y)

/-- LINE (43 R127): the pen is left at the second point (D15). -/
def execLine (x1 y1 x2 y2 : Int) (color : Colour) (s : State) : Host.Outcome State Fault Refusal :=
  .next ((s.drawLine x1 y1 x2 y2 color).setPen x2 y2)

end Sys2Proof.Machine
end

