-- ==== Sys2Proof/Machine/Dispatch.lean ====
section
/-! DEFINITION. Machine/Dispatch.lean: one arm per operation of spec 30_encoding R62. -/

namespace Sys2Proof.Machine

def exec (i : Instr) (s : State) : Host.Outcome State Fault Refusal :=
  match i with
  -- lifecycle and helpers, 45_lifecycle
  | .init => Sys2Proof.Machine.execInit s
  | .setorient o => Sys2Proof.Machine.execSetorient o s
  | .getw => Sys2Proof.Machine.execGetw s
  | .geth => Sys2Proof.Machine.execGeth s
  | .packrgb r g b => Sys2Proof.Machine.execPackrgb r g b s
  -- the mask, 40_clip_and_mask
  | .setmask left right top bottom => Sys2Proof.Machine.execSetmask left right top bottom s
  -- pass-through commands, 41_addressing_and_bus
  | .scrolldef topFixed scrollArea bottomFixed => Sys2Proof.Machine.execScrolldef topFixed scrollArea bottomFixed s
  | .scrollstart offset => Sys2Proof.Machine.execScrollstart offset s
  -- rectangle primitives, 42_rect_primitives
  | .rectfill left right top bottom color => Sys2Proof.Machine.execRectfill left right top bottom color s
  | .rect left right top bottom color => Sys2Proof.Machine.execRect left right top bottom color s
  | .blt left right top bottom src => Sys2Proof.Machine.execBlt left right top bottom src s
  -- pen and line, 43_line
  | .moveto x y => Sys2Proof.Machine.execMoveto x y s
  | .lineto x y color => Sys2Proof.Machine.execLineto x y color s
  | .line x1 y1 x2 y2 color => Sys2Proof.Machine.execLine x1 y1 x2 y2 color s
  -- text, 44_text
  | .fontface base => Sys2Proof.Machine.execFontface base s
  | .fontcolor packedBgFg => Sys2Proof.Machine.execFontcolor packedBgFg s
  | .locate col row => Sys2Proof.Machine.execLocate col row s
  | .putchar ch => Sys2Proof.Machine.execPutchar ch s
  | .getfw => Sys2Proof.Machine.execGetfw s
  | .getfh => Sys2Proof.Machine.execGetfh s

end Sys2Proof.Machine
end

