-- ==== Sys2Proof/Machine/Sequencer.lean ====
section
/-! DEFINITION. Machine/Sequencer.lean: what surrounds an operation: the input pins, acceptance of a command word, draining
of Q, completion, the quiet step and block reset (spec 10_state R25 to R28, 30_encoding R60, R61, 70 R186). -/

namespace Sys2Proof.Machine

/-- What the next step does: `rst` wins over everything (60 R169); a busy block goes on and ignores the command port
(30 R60); an idle one accepts a presented word. -/
def State.nextAction (s : State) : Action :=
  match s.host with
  | .rst :: _ => .blockReset
  | .issue w :: _ => if s.busy then .drain else .accept w
  | _ => if s.busy then .drain else .quiet

/-- The host's moves after a step that accepts nothing: a pause of one step is over, a presented word is held (70 R194). -/
def waitMoves : List HostMove → List HostMove
  | .idle :: rest => rest
  | moves => moves

/-- Acceptance of the word `w` (30 R60, 10_state R27, R28): the word is latched, BUSY becomes 1, the host goes on. The
operation's own effect follows (`exec`). -/
def State.accept (s : State) (w : CmdWord) : State :=
  { s with host := s.host.tail, latch := w, busy := true, respValid := false, respPending := false }

/-- Completion of the operation in progress: BUSY becomes 0, and `resp_valid` is raised if it responded (10_state R25, 30
R61; log 5, log 6). -/
def State.complete (s : State) : State :=
  { s with busy := false, respValid := s.respPending, respPending := false }

/-- One event leaves the block: the lines follow it and it joins the bus trace (41 R92, R93). -/
def State.emitNow (s : State) (e : BusEvent) : State :=
  { s with lines := s.lines.after e, emitted := e :: s.emitted }

/-- What time brings in any step but an acceptance or a reset: a pause of the host ends, and `resp_valid` falls (30 R61).
It is the whole step of an idle block to which no word is presented. -/
def State.quiet (s : State) : State := { s with host := waitMoves s.host, respValid := false }

/-- A step of a busy block (10_state R28): the head of Q is emitted; when Q is empty the operation completes. -/
def State.drain (s : State) : State :=
  match s.queue with
  | [] => s.quiet.complete
  | [e] => ({ s.quiet with queue := [] }.emitNow e).complete
  | e :: rest => { s.quiet with queue := rest }.emitNow e

/-- Block reset (70 R186, 10_state R33): every register takes its value "after rst", Q is emptied, BUSY = 0, the lines take
their idle levels. Unspecified values are drawn anew (log 3); nothing is emitted (log 17). -/
def State.blockReset (s : State) : State :=
  { s with
    orient := 0
    maskL := 0
    maskR := BitVec.ofNat 16 (s.cfg.panelW - 1)
    maskT := 0
    maskB := BitVec.ofNat 16 (s.cfg.panelH - 1)
    penX := 0
    penY := 0
    curX := 0
    curY := 0
    gcolor := Config.unspecified 32 s.draws
    fontValid := false
    fontBase := Config.unspecified 32 (s.draws + 1)
    fw := 0
    fh := 0
    lines := Lines.idle
    busy := false
    resp := Config.unspecified 16 (s.draws + 2)
    respValid := false
    respPending := false
    latch := Config.unspecified 104 (s.draws + 3)
    queue := []
    host := s.host.tail
    draws := s.draws + 4 }

/-- The state once the operation in progress has completed with no `rst` meanwhile: every event of Q emitted, BUSY = 0
(10_state R28, the big-step reading). -/
def State.settled (s : State) : State :=
  { s with
    lines := s.lines.afterAll s.queue
    emitted := s.queue.reverse ++ s.emitted
    queue := []
    busy := false
    respValid := s.respPending
    respPending := false }

/-- Present the word `w` to an idle block, before the host's other moves, so that the next step accepts it. -/
def State.present (s : State) (w : CmdWord) : State :=
  { s with host := .issue w :: s.host, busy := false, queue := [] }

end Sys2Proof.Machine
end

