-- ==== Sys2Proof/Machine/Step.lean ====
section
/-! DEFINITION. Machine/Step.lean: one step of the block (spec 10_state R28): block reset, one event of a busy block, the
acceptance of a command word with the effect of its operation, or nothing. -/

namespace Sys2Proof.Machine

/-- One step. A reserved opcode is accepted and completes as a silent no-op (30_encoding R67). -/
def step (s : State) : Host.Outcome State Fault Refusal :=
  match s.nextAction with
  | .blockReset => .next s.blockReset
  | .drain => .next s.drain
  | .quiet => .next s.quiet
  | .accept w =>
    match decode w with
    | .instr i => exec i (s.accept w)
    | .reserved _ => .next (s.accept w)

/-- `s` with the table word presented on the command port of an idle block, so that the next step runs it (log 7). -/
def State.withFetchWord (s : State) (nbits w : Nat) : State := s.present (tableWord nbits w)

end Sys2Proof.Machine
end

