-- ==== Sys2Proof/Machine/WindowFsm.lean ====
section
/-! DEFINITION. Machine/WindowFsm.lean: the 16-state machine that produces a window transaction one event at a time (spec
41_addressing_and_bus R99). It is a lazy implementation of `windowTx`, unobservable (10_state R29), and no part of State
(log 13). -/

namespace Sys2Proof.Machine

/-- The states of the window FSM (41 R99), in the order of their codes. -/
inductive WState where
  | idle | sel | caset | xsH | xsL | xeH | xeL | paset | ysH | ysL | yeH | yeL | ramwr | pixH | pixL | rel
deriving DecidableEq, Repr

/-- The 4-bit code of a state (41 R99). -/
def WState.code : WState → BitVec 4
  | .idle => 0
  | .sel => 1
  | .caset => 2
  | .xsH => 3
  | .xsL => 4
  | .xeH => 5
  | .xeL => 6
  | .paset => 7
  | .ysH => 8
  | .ysL => 9
  | .yeH => 10
  | .yeL => 11
  | .ramwr => 12
  | .pixH => 13
  | .pixL => 14
  | .rel => 15

/-- The hidden registers of the window FSM (41 R99): the state, the latched window, the down-counter CNT, the current pixel
word P, and what the primitive's supplier `next_pixel()` has still to give. -/
structure WindowFsm where
  state  : WState
  l      : Half
  r      : Half
  t      : Half
  b      : Half
  cnt    : Nat
  p      : Colour
  supply : List Colour
deriving DecidableEq, Repr

/-- `P <- next_pixel()`; an exhausted supplier leaves P (it cannot be asked: 41 R100; log 13). -/
def WindowFsm.fetchPixel (f : WindowFsm) : WindowFsm :=
  match f.supply with
  | [] => f
  | p :: rest => { f with p := p, supply := rest }

/-- The start pulse: loads the window and `CNT <- n` (41 R99). DESIGN CHOICE, safe: R99 is silent on P between the start and
the first `next_pixel()`; here it is 0, and no state that emits P is reached before P is loaded (log 13). -/
def WindowFsm.start (q : Rect) (words : List Colour) : WindowFsm :=
  { state := .sel, l := wrap16 q.l, r := wrap16 q.r, t := wrap16 q.t, b := wrap16 q.b, cnt := q.count, p := 0,
    supply := words }

/-- The event the state emits (41 R99). -/
def WindowFsm.emits (c : Cfg) (f : WindowFsm) : List BusEvent :=
  match f.state with
  | .idle => []
  | .sel => [.sel]
  | .caset => [.cmd c.caset]
  | .xsH => [.data (highByte f.l)]
  | .xsL => [.data (lowByte f.l)]
  | .xeH => [.data (highByte f.r)]
  | .xeL => [.data (lowByte f.r)]
  | .paset => [.cmd c.paset]
  | .ysH => [.data (highByte f.t)]
  | .ysL => [.data (lowByte f.t)]
  | .yeH => [.data (highByte f.b)]
  | .yeL => [.data (lowByte f.b)]
  | .ramwr => [.cmd c.ramwr]
  | .pixH => [.data (highByte f.p)]
  | .pixL => [.data (lowByte f.p)]
  | .rel => [.rel]

/-- The machine after the step (41 R99). -/
def WindowFsm.next (f : WindowFsm) : WindowFsm :=
  match f.state with
  | .idle => f
  | .sel => { f with state := .caset }
  | .caset => { f with state := .xsH }
  | .xsH => { f with state := .xsL }
  | .xsL => { f with state := .xeH }
  | .xeH => { f with state := .xeL }
  | .xeL => { f with state := .paset }
  | .paset => { f with state := .ysH }
  | .ysH => { f with state := .ysL }
  | .ysL => { f with state := .yeH }
  | .yeH => { f with state := .yeL }
  | .yeL => { f with state := .ramwr }
  | .ramwr => { f with state := .pixH }.fetchPixel
  | .pixH => { f with state := .pixL }
  | .pixL =>
    if f.cnt - 1 = 0 then { f with state := .rel, cnt := f.cnt - 1 }
    else { f with state := .pixH, cnt := f.cnt - 1 }.fetchPixel
  | .rel => { f with state := .idle }

/-- The events of `k` steps and the machine after them. -/
def WindowFsm.run (c : Cfg) (f : WindowFsm) : Nat → List BusEvent × WindowFsm
  | 0 => ([], f)
  | k + 1 => (f.emits c ++ (f.next.run c k).1, (f.next.run c k).2)

end Sys2Proof.Machine
end

