-- ==== Sys2Proof/Machine/BigStep.lean ====
section
/-! DEFINITION. Machine/BigStep.lean: the reference semantics of spec 10_state R28, one operation at a time:
`Exec(Cfg, Font, Src, state, cmd) = (state', trace, responses)`, with the trace and the responses added to those of the
state. -/

namespace Sys2Proof.Machine

/-- `Exec` (10_state R28): the command word `w` accepted and executed to completion. -/
def State.operate (s : State) (w : CmdWord) : State :=
  match decode w with
  | .reserved _ => (s.accept w).settled
  | .instr i =>
    match exec i (s.accept w) with
    | .next t => t.settled
    | .fault _ => s
    | .refused _ => s

/-- A list of command words executed one after the other (20_memory R53, 30 R70). -/
def State.operateAll (s : State) (ws : List CmdWord) : State := ws.foldl State.operate s

end Sys2Proof.Machine
end

