-- ==== Sys2Proof/Machine/Panel.lean ====
section
/-! DEFINITION. Machine/Panel.lean: the abstract reading of a bus trace as pixel writes (spec 20_memory R48), the only model
of the panel the spec contains; it is a function of the trace, not state of the block (10_state R35; log 12). R48 reads
only windows with an exact pixel count; what the reading gives for any other trace is a DESIGN CHOICE (log 22). -/

namespace Sys2Proof.Machine

/-- One pixel write. -/
structure Pixel where
  x : Int
  y : Int
  colour : Colour
deriving DecidableEq, Repr

/-- Where the reading of a selection stands: its command bytes and argument bytes so far, oldest first, the high byte of a
pixel word whose low byte is still to come, and the number of whole pixel words. -/
structure PanelView where
  cmds  : List Byte
  args  : List Byte
  hi    : Option Byte
  words : Nat
deriving DecidableEq, Repr

/-- The reading at the start of a selection. -/
def PanelView.start : PanelView := { cmds := [], args := [], hi := none, words := 0 }

/-- The selection is in the pixel stream of a window transaction (41 R96). -/
def PanelView.streaming (c : Cfg) (v : PanelView) : Bool := v.cmds == [c.caset, c.paset, c.ramwr]

/-- Two bytes, most significant first, as a window coordinate. -/
def coordinate (hi lo : Byte) : Int := Int.ofNat (hi ++ lo : Half).toNat

/-- The window a selection has sent (41 R96): columns first, then pages. -/
def PanelView.window (v : PanelView) : Option Rect :=
  match v.args with
  | [l1, l0, r1, r0, t1, t0, b1, b0] =>
    some { l := coordinate l1 l0, r := coordinate r1 r0, t := coordinate t1 t0, b := coordinate b1 b0 }
  | _ => none

/-- The pixel that word number `k` of a window's stream gives (20 R48): row-major order. DESIGN CHOICE, unsafe: a word past
the last pixel runs on in the rows below the window, where the protocol leaves the effect undefined (93 U1; log 22). -/
def Rect.pixelAt (q : Rect) (k : Nat) : Int × Int :=
  (q.l + (k : Int) % (q.r - q.l + 1), q.t + (k : Int) / (q.r - q.l + 1))

/-- The reading after one event. DESIGN CHOICE, unsafe: `SEL` begins a new selection whatever came before, so after a block
reset that cut a window transaction (70 R186) the next selection is read as usual, where 93 U1 has a panel model stuck until
INIT (log 22). -/
def PanelView.next (c : Cfg) (v : PanelView) : BusEvent → PanelView
  | .sel => PanelView.start
  | .rel => PanelView.start
  | .cmd b => { v with cmds := v.cmds ++ [b] }
  | .data b =>
    if v.streaming c then
      match v.hi with
      | none => { v with hi := some b }
      | some _ => { v with hi := none, words := v.words + 1 }
    else { v with args := v.args ++ [b] }
  | .rst _ => v
  | .wait _ => v
  | .gpioSetup => v
  | .busConfig => v

/-- The pixel write an event completes: the low byte of a pixel word does, every other event none. DESIGN CHOICE, unsafe: a
selection with too few or too many words, or cut by a block reset, still writes every whole word it sent, where the protocol
leaves the effect undefined (93 U1, 70 R186; log 22). -/
def PanelView.write (c : Cfg) (v : PanelView) : BusEvent → List Pixel
  | .data b =>
    match v.streaming c, v.hi, v.window with
    | true, some hi, some q => [{ x := (q.pixelAt v.words).1, y := (q.pixelAt v.words).2, colour := hi ++ b }]
    | _, _, _ => []
  | _ => []

/-- The pixel writes of a trace, read on from `v`. -/
def PanelView.pixels (c : Cfg) (v : PanelView) : List BusEvent → List Pixel
  | [] => []
  | e :: es => v.write c e ++ (v.next c e).pixels c es

/-- `Pixels(trace)` (20 R48): the pixel writes in order; a later write to the same pixel replaces an earlier one. Of a trace
that is not well framed with exact counts it is the model's choice (log 22). -/
def pixels (c : Cfg) (trace : List BusEvent) : List Pixel := PanelView.start.pixels c trace

/-- The final colour of a pixel after a list of writes, if it was written (20 R48). -/
def finalColour (writes : List Pixel) (x y : Int) : Option Colour :=
  (writes.reverse.find? fun p => p.x = x && p.y = y).map Pixel.colour

end Sys2Proof.Machine
end

