-- ==== Sys2Proof/Safety.lean ====
section
/-! DEFINITION. Safety.lean: what a good state and a good trace of the block are: the trace grammar (spec 41 R95), exact
pixel counts (41 R98), the invariants of 10_state R14, R20, R22, R31 and R32, the access table of 10_state R34, and the bits of
a command word that an operation uses (30_encoding R64 to R66). -/

namespace Sys2Proof.Safety

open Sys2Proof.Machine

/-- Where a trace stands in the grammar of 41 R95: outside a selection, right after `SEL`, or inside a frame. -/
inductive Phase where
  | released
  | opened
  | framed
deriving DecidableEq, Repr

/-- One event of the grammar (41 R95); none where the grammar does not allow it. -/
def Phase.next : Phase → BusEvent → Option Phase
  | .released, .sel => some .opened
  | .released, .rst _ => some .released
  | .released, .wait _ => some .released
  | .released, .gpioSetup => some .released
  | .released, .busConfig => some .released
  | .opened, .cmd _ => some .framed
  | .framed, .cmd _ => some .framed
  | .framed, .data _ => some .framed
  | .framed, .rel => some .released
  | _, _ => none

/-- The phase after a list of events. -/
def Phase.run (p : Phase) : List BusEvent → Option Phase
  | [] => some p
  | e :: es =>
    match p.next e with
    | some q => q.run es
    | none => none

/-- A well-formed trace (41 R95): `trace := item*`. -/
def wellFramed (trace : List BusEvent) : Bool := Phase.released.run trace == some .released

/-- At a `REL`: a selection that opened a window has sent exactly as many whole pixel words as the window it sent has pixels
(41 R98). -/
def countOk (c : Cfg) (v : PanelView) : Bool :=
  if v.streaming c then
    match v.window with
    | some q => v.hi == none && v.words == q.count
    | none => false
  else true

/-- Every selection of the rest of a trace, read on from `v`, has an exact pixel count (41 R98). -/
def exactFrom (c : Cfg) (v : PanelView) : List BusEvent → Bool
  | [] => true
  | .rel :: es => countOk c v && exactFrom c (v.next c .rel) es
  | e :: es => exactFrom c (v.next c e) es

/-- Every window transaction of the trace has an exact pixel count (41 R98). -/
def exactCounts (c : Cfg) (trace : List BusEvent) : Bool := exactFrom c PanelView.start trace

/-- The mask lies inside the logical screen and is not inverted (10_state R14, R32 (i) and (ii)). -/
def maskInv (s : State) : Bool :=
  decide (0 ≤ s.maskL.toInt) && decide (s.maskL.toInt ≤ s.maskR.toInt) && decide (s.maskR.toInt ≤ s.w - 1)
    && decide (0 ≤ s.maskT.toInt) && decide (s.maskT.toInt ≤ s.maskB.toInt) && decide (s.maskB.toInt ≤ s.h - 1)

/-- R32 (iv) and (v): a registered font's signature and header bytes stand at FONT_BASE; without one FW = FH = 0. -/
def fontInv (s : State) : Bool :=
  if s.fontValid then
    s.fontSigOk s.fontBase && s.fw == s.fontAt (s.fontBase.toNat + 14) && s.fh == s.fontAt (s.fontBase.toNat + 15)
  else s.fw == 0 && s.fh == 0

/-- The lines at the end of Q are the idle levels: Q releases what it selects, and leaves the panel reset line high
(10_state R22, R31). -/
def linesInv (s : State) : Bool := s.lines.afterAll s.queue == Lines.idle

/-- Q is empty when the block is idle, and `respPending` belongs to an operation in progress (10_state R31). -/
def idleInv (s : State) : Bool := s.busy || (s.queue == [] && !s.respPending)

/-- Both spaces are in canonical form (20_memory R41, R42). -/
def memInv (s : State) : Bool := Mem.wf s.font && Mem.wf s.src

/-- The invariant of the block (10_state R32). -/
def inv (s : State) : Bool := maskInv s && fontInv s && linesInv s && idleInv s && memInv s

/-- The whole traffic, emitted and pending, is well framed and every window in it has an exact pixel count (41 R95, R98). -/
def trafficGood (s : State) : Bool :=
  wellFramed (s.trace ++ s.queue) && exactCounts s.cfg (s.trace ++ s.queue)

/-- The host's next move, if any, presents a word (so the block is neither paused nor reset before it completes). -/
def hostSteady (s : State) : Bool :=
  match s.host with
  | [] => true
  | .issue _ :: _ => true
  | _ => false

/-- The positions of the pixel writes of a trace, in order (20_memory R48). -/
def positions (c : Cfg) (trace : List BusEvent) : List (Int × Int) := (pixels c trace).map fun p => (p.x, p.y)

/-- The columns of the access table of 10_state R34. -/
inductive Reg where
  | orient | mask | pen | cur | gcolor | fontValid | fontBase | cell | resp
deriving DecidableEq, Repr

/-- The registers an operation may write: `w` or `w?` in the access table (10_state R34). -/
def writes : Instr → List Reg
  | .init => [.orient, .mask, .pen, .cur, .fontValid, .fontBase, .cell]
  | .setorient _ => [.orient, .mask, .pen, .cur]
  | .getw => [.resp]
  | .geth => [.resp]
  | .packrgb _ _ _ => [.resp]
  | .setmask _ _ _ _ => [.mask]
  | .scrolldef _ _ _ => []
  | .scrollstart _ => []
  | .rectfill _ _ _ _ _ => []
  | .rect _ _ _ _ _ => []
  | .blt _ _ _ _ _ => []
  | .moveto _ _ => [.pen]
  | .lineto _ _ _ => [.pen]
  | .line _ _ _ _ _ => [.pen]
  | .fontface _ => [.fontValid, .fontBase, .cell]
  | .fontcolor _ => [.gcolor]
  | .locate _ _ => [.cur]
  | .putchar _ => [.cur]
  | .getfw => [.resp]
  | .getfh => [.resp]

/-- The registers an operation reads: `r` in the access table (10_state R34). -/
def reads : Instr → List Reg
  | .init => []
  | .setorient _ => []
  | .getw => [.orient]
  | .geth => [.orient]
  | .packrgb _ _ _ => []
  | .setmask _ _ _ _ => [.orient]
  | .scrolldef _ _ _ => []
  | .scrollstart _ => []
  | .rectfill _ _ _ _ _ => [.mask]
  | .rect _ _ _ _ _ => [.mask]
  | .blt _ _ _ _ _ => [.mask]
  | .moveto _ _ => []
  | .lineto _ _ _ => [.mask, .pen]
  | .line _ _ _ _ _ => [.mask]
  | .fontface _ => []
  | .fontcolor _ => []
  | .locate _ _ => [.cell]
  | .putchar _ => [.orient, .cur, .gcolor, .fontValid, .fontBase, .cell]
  | .getfw => [.cell]
  | .getfh => [.cell]

/-- The operations whose rule has no bus event on any path (40 R84, 43 R125, 44 R132 to R135, R144, R145, 45 R159 to R163). -/
def silent : Instr → Bool
  | .init => false
  | .setorient _ => false
  | .getw => true
  | .geth => true
  | .packrgb _ _ _ => true
  | .setmask _ _ _ _ => true
  | .scrolldef _ _ _ => false
  | .scrollstart _ => false
  | .rectfill _ _ _ _ _ => false
  | .rect _ _ _ _ _ => false
  | .blt _ _ _ _ _ => false
  | .moveto _ _ => true
  | .lineto _ _ _ => false
  | .line _ _ _ _ _ => false
  | .fontface _ => true
  | .fontcolor _ => true
  | .locate _ _ => true
  | .putchar _ => false
  | .getfw => true
  | .getfh => true

/-- The bits of a command word that its operation uses, by its OPC (30 R64, R65); of a word with a reserved OPC, OPC. The 26
digits are OPC, A, B, C, D, E. -/
def usedBits (opc : Byte) : CmdWord :=
  match opc.toNat with
  | 0x02 => 0xFFFFFF00000000000000000000
  | 0x05 => 0xFF00FF00FF00FF000000000000
  | 0x10 => 0xFFFFFFFFFFFFFFFFFF00000000
  | 0x20 => 0xFFFFFFFFFFFFFF000000000000
  | 0x21 => 0xFFFFFF00000000000000000000
  | 0x30 => 0xFFFFFFFFFFFFFFFFFF0000FFFF
  | 0x31 => 0xFFFFFFFFFFFFFFFFFF0000FFFF
  | 0x32 => 0xFFFFFFFFFFFFFFFFFFFFFFFFFF
  | 0x40 => 0xFFFFFFFFFF0000000000000000
  | 0x41 => 0xFFFFFFFFFF000000000000FFFF
  | 0x42 => 0xFFFFFFFFFFFFFFFFFF0000FFFF
  | 0x50 => 0xFF0000000000000000FFFFFFFF
  | 0x51 => 0xFF0000000000000000FFFFFFFF
  | 0x52 => 0xFFFFFFFFFF0000000000000000
  | 0x53 => 0xFF00FF00000000000000000000
  | _ => 0xFF000000000000000000000000

end Sys2Proof.Safety
end

