-- ==== Sys2Proof/Certificates/Slice0/Obligations.lean ====
section
/-! DEFINITION. Certificates/Slice0/Obligations.lean: the statements for the provers. `W`, `H` are `s.w`, `s.h` (10_state R13)
throughout; a statement about a free value (GCOLOR, FONT_BASE, RESP, the latch after `rst`) holds for every value of it. -/

open Sys2Proof Sys2Proof.Machine Sys2Proof.Safety

/-! ### Encoding -/

/-- 30_encoding R63 to R65, R70: decoding the encoding of a well-formed operation gives it back, every operand at every
value its field admits. -/
def Obligations.DecodeOfEncode : Prop :=
  ∀ i : Instr, i.wellFormed = true → decode (encode i) = .instr i

/-- 30 R64, R65: what the decoder reads is well formed, and encoding it gives the word with its unused bits cleared. -/
def Obligations.EncodeOfDecode : Prop :=
  ∀ (w : CmdWord) (i : Instr), decode w = .instr i → i.wellFormed = true ∧ encode i = w &&& usedBits (fieldOpc w)

/-- 30 R66: bits an operation does not use have no effect, whatever they are; the assembler writes them as zero. -/
def Obligations.UnusedBitsHaveNoEffect : Prop :=
  (∀ w w' : CmdWord, w &&& usedBits (fieldOpc w) = w' &&& usedBits (fieldOpc w') → decode w = decode w') ∧
  ∀ i : Instr, encode i &&& ~~~(usedBits i.opcode) = 0

/-- 30 R67, R73: OPC alone decides; exactly the 236 values outside the table are reserved, and an idle block accepts a word
with a reserved OPC and completes it: it is idle again, with no event, no response and no register changed. -/
def Obligations.ReservedOpcodeIsSilentNoOp : Prop :=
  (∀ (w : CmdWord) (o : Byte), decode w = .reserved o ↔ o = w.extractLsb' 96 8 ∧
    o.toNat ∉ [0x01, 0x02, 0x03, 0x04, 0x05, 0x10, 0x20, 0x21, 0x30, 0x31, 0x32, 0x40, 0x41, 0x42, 0x50, 0x51, 0x52, 0x53,
      0x54, 0x55]) ∧
  ((List.range 256).countP fun o => decode (packWord (BitVec.ofNat 8 o) 0 0 0 0 0) == .reserved (BitVec.ofNat 8 o)) = 236 ∧
  ∀ (s : State) (w : CmdWord) (o : Byte), s.busy = false → s.queue = [] → s.host = [.issue w] → decode w = .reserved o →
    ∃ k, Host.Core.run Sys2Proof.core k s =
      .next { s with host := [], latch := w, respValid := false, respPending := false }

/-- 95_test_vectors 2.1: words of the spec, one of each family. -/
def Obligations.SpecWordsDecode : Prop :=
  decode 0x01FFFFFFFFFFFFFFFFFFFFFFFF = .instr .init ∧
  decode 0x10000A0064001400C800000000 = .instr (.setmask 10 100 20 200) ∧
  decode 0x20000001400000000000000000 = .instr (.scrolldef 0 320 0) ∧
  decode 0x30000A0014001E0028ABCDF800 = .instr (.rectfill 10 20 30 40 0xF800) ∧
  decode 0x42FFFB0003000C00030000FFFF = .instr (.line (-5) 3 12 3 0xFFFF) ∧
  decode 0x53FF41DEADBEEFCAFE12345678 = .instr (.putchar 0x41)

/-! ### The step -/

/-- 30 R60, 10_state R27, R28: an idle block to which a word is presented accepts it: the word is latched, BUSY becomes 1,
the host's move is over, and the step is `exec` of the decoded operation there. -/
def Obligations.StepRunsDecodedInstruction : Prop :=
  ∀ (s : State) (w : CmdWord) (rest : List HostMove) (i : Instr),
    s.busy = false → s.host = .issue w :: rest → decode w = .instr i →
    step s = exec i { s with host := rest, latch := w, busy := true, respValid := false, respPending := false }

/-- 30 R60: while `cmd_ready = 0` the block ignores the command port, and the host holds its word. -/
def Obligations.BusyBlockIgnoresCommandPort : Prop :=
  ∀ (s : State) (w : CmdWord) (rest : List HostMove), s.busy = true →
    ∃ t, step { s with host := [] } = .next t ∧ t.host = [] ∧ t.latch = s.latch ∧
      step { s with host := .issue w :: rest } = .next { t with host := .issue w :: rest }

/-- 10_state R25, R28: a busy block emits the events of Q in order, one a step, and is then idle; the registers keep their
values. With Q empty it takes one step (log 5). -/
def Obligations.QueueDrainsInOrder : Prop :=
  ∀ s : State, s.busy = true → hostSteady s = true →
    Host.Core.run Sys2Proof.core (max 1 s.queue.length) s =
      .next { s with
        lines := s.queue.foldl Lines.after s.lines
        emitted := s.queue.reverse ++ s.emitted
        queue := []
        busy := false
        respValid := s.respPending
        respPending := false }

/-- 10_state R28, 20_memory R53, 30 R60: a list of words presented to an idle block runs as the big steps `Exec` one after
the other; the block is idle at the end. -/
def Obligations.ProgramRunsAsBigSteps : Prop :=
  ∀ (ws : List CmdWord) (s : State), s.busy = false → s.queue = [] → s.host = ws.map .issue →
    ∃ k, Host.Core.run Sys2Proof.core k s = .next (s.operateAll ws) ∧
      (s.operateAll ws).busy = false ∧ (s.operateAll ws).queue = [] ∧ (s.operateAll ws).host = []

/-- 30 R61: each of the five operations that return a value raises `resp_valid` for one step when it completes, with the
value in RESP; no other operation marks a response. The instant of the pulse is log 6. -/
def Obligations.RespValidIsOnePulse : Prop :=
  (∀ (s : State) (w : CmdWord) (i : Instr), s.busy = false → s.queue = [] → s.host = [.issue w] → decode w = .instr i →
    Reg.resp ∈ writes i →
    ∃ t1 t2 t3, step s = .next t1 ∧ step t1 = .next t2 ∧ step t2 = .next t3 ∧
      t1.respValid = false ∧ t1.busy = true ∧ t2.respValid = true ∧ t2.busy = false ∧ t3.respValid = false ∧
      t2.responded = t2.resp :: s.responded ∧ t3.resp = t2.resp ∧ t3.busy = false) ∧
  ∀ (i : Instr) (s t : State), Reg.resp ∉ writes i → exec i s = .next t →
    t.respPending = s.respPending ∧ t.respValid = s.respValid

/-- 60_exceptions R165: `Exec` is total: every operation in every state yields a next state, at most one response and events
that join Q; and every step of every state yields a next state. -/
def Obligations.EveryStepCompletes : Prop :=
  (∀ (i : Instr) (s : State), ∃ t es, exec i s = .next t ∧ t.queue = s.queue ++ es ∧
    (t.responded = s.responded ∨ t.responded = t.resp :: s.responded)) ∧
  ∀ s : State, ∃ t, step s = .next t

/-! ### Reset and invariants -/

/-- 10_state R33, 70 R186: block reset, also in mid-operation, gives every register its value "after rst" (GCOLOR,
FONT_BASE, RESP and the latch are unspecified and not constrained), empties Q and emits nothing. What else it leaves alone
is log 17. -/
def Obligations.BlockResetValues : Prop :=
  ∀ (s : State) (rest : List HostMove), s.host = .rst :: rest →
    ∃ t, step s = .next t ∧ t.orient = 0 ∧
      t.mask = { l := 0, r := s.cfg.panelW - 1, t := 0, b := s.cfg.panelH - 1 } ∧
      t.penX = 0 ∧ t.penY = 0 ∧ t.curX = 0 ∧ t.curY = 0 ∧ t.fontValid = false ∧ t.fw = 0 ∧ t.fh = 0 ∧
      t.lines = { sel := false, dc := true, rstn := true } ∧ t.busy = false ∧ t.queue = [] ∧ t.respValid = false ∧
      t.emitted = s.emitted ∧ t.responded = s.responded ∧ t.cfg = s.cfg ∧
      (∀ a, t.fontAt a = s.fontAt a) ∧ (∀ a, t.srcAt a = s.srcAt a) ∧ t.host = rest

/-- 10_state R33: the state after reset has the values "after rst" for its own configuration, whichever that is. -/
def Obligations.ResetStateValues : Prop :=
  State.reset.orient = 0 ∧
  State.reset.mask = { l := 0, r := State.reset.cfg.panelW - 1, t := 0, b := State.reset.cfg.panelH - 1 } ∧
  State.reset.penX = 0 ∧ State.reset.penY = 0 ∧ State.reset.curX = 0 ∧ State.reset.curY = 0 ∧
  State.reset.fontValid = false ∧ State.reset.fw = 0 ∧ State.reset.fh = 0 ∧
  State.reset.lines = { sel := false, dc := true, rstn := true } ∧ State.reset.busy = false ∧ State.reset.queue = []

/-- The invariants hold at reset: 10_state R14, R20, R22, R31 (collected in R32, which the spec marks [derived]), 41 R97,
R98. -/
def Obligations.ResetMeetsInvariants : Prop :=
  inv State.reset = true ∧ trafficGood State.reset = true

/-- 10_state R14, R20, R22, R31 (collected in R32, which the spec marks [derived]): every step, from every state that meets
it, keeps the invariant: the mask on the screen, the font registers true to FONT or zero, SEL = 0 and DC = RSTN = 1 once Q
is empty, Q empty when idle, both memories in canonical form. -/
def Obligations.StepKeepsInvariant : Prop :=
  ∀ s t : State, inv s = true → step s = .next t → inv t = true

/-- 41 R98, 70 R193 and the grammar of 41 R95 (marked [derived] there): no step but a block reset in mid-operation makes the
bus traffic, emitted and pending, break the trace grammar or carry a window transaction with the wrong number of pixel
words. -/
def Obligations.StepKeepsTrafficGood : Prop :=
  ∀ s t : State, inv s = true → trafficGood s = true → (s.rstAsserted = true → s.busy = false) →
    step s = .next t → trafficGood t = true

/-- 41 R95 (the spec marks it [derived: from R97, R103 to R105, R151, R156]): the trace of every operation matches the
grammar, and (R98) every window in it has an exact pixel count. -/
def Obligations.OperationTraceIsWellFormed : Prop :=
  ∀ (i : Instr) (s t : State), maskInv s = true → s.queue = [] → exec i s = .next t →
    wellFramed t.queue = true ∧ exactCounts t.cfg t.queue = true

/-- 10_state R34 (write half; the spec marks the table [derived] from the operation rules): an operation writes no register
that the access table does not give it, and no other state: configuration, every byte of FONT, every word of SRC, the lines,
BUSY, the latch, the trace, the host. It adds events to Q and takes none away; the silent operations add none. -/
def Obligations.OperationFrame : Prop :=
  ∀ (i : Instr) (s t : State), exec i s = .next t →
    (Reg.orient ∉ writes i → t.orient = s.orient) ∧
    (Reg.mask ∉ writes i → t.maskL = s.maskL ∧ t.maskR = s.maskR ∧ t.maskT = s.maskT ∧ t.maskB = s.maskB) ∧
    (Reg.pen ∉ writes i → t.penX = s.penX ∧ t.penY = s.penY) ∧
    (Reg.cur ∉ writes i → t.curX = s.curX ∧ t.curY = s.curY) ∧
    (Reg.gcolor ∉ writes i → t.gcolor = s.gcolor) ∧
    (Reg.fontValid ∉ writes i → t.fontValid = s.fontValid) ∧
    (Reg.fontBase ∉ writes i → t.fontBase = s.fontBase) ∧
    (Reg.cell ∉ writes i → t.fw = s.fw ∧ t.fh = s.fh) ∧
    (Reg.resp ∉ writes i → t.resp = s.resp ∧ t.responded = s.responded) ∧
    t.cfg = s.cfg ∧ (∀ a, t.fontAt a = s.fontAt a) ∧ (∀ a, t.srcAt a = s.srcAt a) ∧
    t.lines = s.lines ∧ t.busy = s.busy ∧ t.respValid = s.respValid ∧ t.latch = s.latch ∧ t.emitted = s.emitted ∧
    t.host = s.host ∧ t.draws = s.draws ∧
    (∃ es, t.queue = s.queue ++ es ∧ (silent i = true → es = []))

/-- 10_state R34 (read half; the spec marks the table [derived] from the operation rules): an operation that the access
table lets neither read nor write the mask, the pen, the cursor or GCOLOR does the same whatever that register holds, and
leaves it there. -/
def Obligations.UnreadRegistersDoNotMatter : Prop :=
  ∀ (i : Instr) (s t : State), exec i s = .next t →
    (∀ l r u b : Half, Reg.mask ∉ reads i → Reg.mask ∉ writes i →
      exec i { s with maskL := l, maskR := r, maskT := u, maskB := b } =
        .next { t with maskL := l, maskR := r, maskT := u, maskB := b }) ∧
    (∀ x y : Half, Reg.pen ∉ reads i → Reg.pen ∉ writes i →
      exec i { s with penX := x, penY := y } = .next { t with penX := x, penY := y }) ∧
    (∀ x y : Half, Reg.cur ∉ reads i → Reg.cur ∉ writes i →
      exec i { s with curX := x, curY := y } = .next { t with curX := x, curY := y }) ∧
    (∀ g : BitVec 32, Reg.gcolor ∉ reads i → Reg.gcolor ∉ writes i →
      exec i { s with gcolor := g } = .next { t with gcolor := g })

/-- 20_memory R48, 40 R82, 44 R141: every pixel an operation addresses lies on the logical screen, and, unless the operation
is PUTCHAR or INIT, in the mask. A command transaction carries no pixel (41 R103; log 12). -/
def Obligations.PixelsStayInside : Prop :=
  ∀ (i : Instr) (s t : State), maskInv s = true → s.queue = [] → exec i s = .next t →
    (∀ p ∈ positions t.cfg t.queue, t.screen.has p.1 p.2 = true) ∧
    ((∀ ch, i ≠ .putchar ch) → i ≠ .init → ∀ p ∈ positions t.cfg t.queue, s.mask.has p.1 p.2 = true)

/-- 30 R72 (the spec marks it [derived]): every loop is bounded before it starts: a line has at most 65536 steps, a window
at most 2^30 pixels. -/
def Obligations.WorkIsBounded : Prop :=
  (∀ x1 y1 x2 y2 : Int, isS16 x1 = true → isS16 y1 = true → isS16 x2 = true → isS16 y2 = true →
    (lineSteps x1 y1 x2 y2).length ≤ 65536) ∧
  (∀ s : State, s.screen.count = s.cfg.panelW * s.cfg.panelH ∧ s.screen.count ≤ 2 ^ 30) ∧
  ∀ (s : State) (q w : Rect), maskInv s = true → s.clipRect q = some w → 1 ≤ w.count ∧ w.count ≤ s.screen.count

/-! ### Clipper and mask -/

/-- 40_clip_and_mask R82: InMask is membership in the mask; with the mask on the screen it implies the screen, so no point
with a negative coordinate is ever in the mask. -/
def Obligations.InMaskIsMaskMembership : Prop :=
  ∀ (s : State) (x y : Int),
    (s.inMask x y = true ↔
      s.maskL.toInt ≤ x ∧ x ≤ s.maskR.toInt ∧ s.maskT.toInt ≤ y ∧ y ≤ s.maskB.toInt) ∧
    (maskInv s = true → s.inMask x y = true → 0 ≤ x ∧ x ≤ s.w - 1 ∧ 0 ≤ y ∧ y ≤ s.h - 1)

/-- 40 R83 (the spec marks it [derived: from R81 and R14]): ClipRect is the intersection with the mask: of its result all
bounds, all pixels, and the values on the bus; when there is none, no pixel is common. -/
def Obligations.ClipRectIsIntersection : Prop :=
  ∀ (s : State) (q : Rect), maskInv s = true →
    (∀ w, s.clipRect q = some w →
      (s.mask.l ≤ w.l ∧ w.l ≤ w.r ∧ w.r ≤ s.mask.r ∧ s.mask.t ≤ w.t ∧ w.t ≤ w.b ∧ w.b ≤ s.mask.b) ∧
      (q.l ≤ w.l ∧ w.r ≤ q.r ∧ q.t ≤ w.t ∧ w.b ≤ q.b) ∧
      (∀ x y, w.has x y = true ↔ q.has x y = true ∧ s.mask.has x y = true) ∧
      ∀ v ∈ [w.l, w.r, w.t, w.b], 0 ≤ v ∧ v ≤ 32767 ∧ ((wrap16 v).toNat : Int) = v) ∧
    (s.clipRect q = none → ∀ x y, ¬ (q.has x y = true ∧ s.mask.has x y = true))

/-- 40 R84: SETMASK sets the mask if and only if the rectangle is well formed and lies inside the logical screen; otherwise
it changes nothing. -/
def Obligations.SetmaskRule : Prop :=
  (∀ w : CmdWord, w.extractLsb' 96 8 = 0x10#8 → decode w = .instr (.setmask (w.extractLsb' 80 16).toInt
    (w.extractLsb' 64 16).toInt (w.extractLsb' 48 16).toInt (w.extractLsb' 32 16).toInt)) ∧
  ∀ (l r t b : Int) (s : State),
    ((0 ≤ l ∧ l ≤ r ∧ r ≤ s.w - 1 ∧ 0 ≤ t ∧ t ≤ b ∧ b ≤ s.h - 1) →
      ∃ ml mr mt mb : Half, ml.toInt = l ∧ mr.toInt = r ∧ mt.toInt = t ∧ mb.toInt = b ∧
        exec (.setmask l r t b) s = .next { s with maskL := ml, maskR := mr, maskT := mt, maskB := mb }) ∧
    (¬ (0 ≤ l ∧ l ≤ r ∧ r ≤ s.w - 1 ∧ 0 ≤ t ∧ t ≤ b ∧ b ≤ s.h - 1) → exec (.setmask l r t b) s = .next s)

/-! ### Bus -/

/-- 41 R96, R97: the window-open sequence, 12 events, then the pixel words high byte first, then REL: `13 + 2n` events. -/
def Obligations.WindowTransactionShape : Prop :=
  ∀ (c : Cfg) (q : Rect) (ws : List Colour),
    (∀ l r t b : Half, l = wrap16 q.l → r = wrap16 q.r → t = wrap16 q.t → b = wrap16 q.b →
      windowTx c q ws =
        [.sel, .cmd c.caset, .data (l.extractLsb' 8 8), .data (l.extractLsb' 0 8), .data (r.extractLsb' 8 8),
          .data (r.extractLsb' 0 8), .cmd c.paset, .data (t.extractLsb' 8 8), .data (t.extractLsb' 0 8),
          .data (b.extractLsb' 8 8), .data (b.extractLsb' 0 8), .cmd c.ramwr]
        ++ (ws.flatMap fun p => [.data (p.extractLsb' 8 8), .data (p.extractLsb' 0 8)]) ++ [.rel]) ∧
    (windowTx c q ws).length = 13 + 2 * ws.length

/-- 20_memory R48: a window transaction whose window fits the bus addresses exactly the window's pixels, in row-major order,
each with its word. -/
def Obligations.PixelsOfWindowTransaction : Prop :=
  ∀ (c : Cfg) (q : Rect) (ws : List Colour), 0 ≤ q.l → q.l ≤ q.r → q.r ≤ 65535 → 0 ≤ q.t → q.t ≤ q.b → q.b ≤ 65535 →
    ws.length = q.count →
    pixels c (windowTx c q ws) = List.zipWith (fun p w => { x := p.1, y := p.2, colour := w }) q.points ws

/-- 41 R100 (the spec marks it [derived: from R96, R97 and R99]): the window FSM, started with a window and a supplier of
its `n >= 1` pixel words, emits exactly the window transaction in `13 + 2n` steps, one event a step, and returns to W_IDLE.
-/
def Obligations.WindowFsmEmitsTransaction : Prop :=
  ∀ (c : Cfg) (q : Rect) (ws : List Colour), ws.length = q.count → 1 ≤ q.count →
    ((WindowFsm.start q ws).run c (13 + 2 * q.count)).1 = windowTx c q ws ∧
    ((WindowFsm.start q ws).run c (13 + 2 * q.count)).2.state = .idle ∧
    ((WindowFsm.start q ws).run c (13 + 2 * q.count)).2.cnt = 0 ∧
    ∀ k, k < 13 + 2 * q.count → ((((WindowFsm.start q ws).run c k).2).emits c).length = 1

/-- 41 R93, 10_state R23: command bytes are transferred with `dc = 0`, data bytes with `dc = 1`; after every event `dc` is 1
again; SEL and REL move `sel`, RST moves `rstn`, and nothing else moves a line. -/
def Obligations.PinsFollowEvents : Prop :=
  ∀ (x : Lines) (b : Byte) (v : Bool) (n : Nat), x.dc = true →
    x.transfers (BusEvent.cmd b).actions = [(false, b)] ∧ x.after (.cmd b) = x ∧
    x.transfers (BusEvent.data b).actions = [(true, b)] ∧ x.after (.data b) = x ∧
    x.after .sel = { x with sel := true } ∧ x.after .rel = { x with sel := false } ∧
    x.after (.rst v) = { x with rstn := v } ∧ x.after (.wait n) = x ∧ x.after .gpioSetup = x ∧ x.after .busConfig = x ∧
    ∀ e : BusEvent, (x.after e).dc = true

/-- 41 R104 (its parameter format is general knowledge by the spec's own mark, GK7; log 21): SCROLLDEF sends its three
values, high byte first, in one command transaction of 9 events, and changes no other state. -/
def Obligations.ScrolldefRule : Prop :=
  (∀ w : CmdWord, w.extractLsb' 96 8 = 0x20#8 →
    decode w = .instr (.scrolldef (w.extractLsb' 80 16) (w.extractLsb' 64 16) (w.extractLsb' 48 16))) ∧
  ∀ (x y z : Half) (s : State), exec (.scrolldef x y z) s = .next { s with
    queue := s.queue ++ [.sel, .cmd s.cfg.vscrdef, .data (x.extractLsb' 8 8), .data (x.extractLsb' 0 8), .data (y.extractLsb' 8 8),
      .data (y.extractLsb' 0 8), .data (z.extractLsb' 8 8), .data (z.extractLsb' 0 8), .rel] }

/-- 41 R105 (its parameter format is general knowledge by the spec's own mark, GK7; log 21): SCROLLSTART sends its offset,
high byte first, in one command transaction of 5 events, and changes no other state. -/
def Obligations.ScrollstartRule : Prop :=
  (∀ w : CmdWord, w.extractLsb' 96 8 = 0x21#8 → decode w = .instr (.scrollstart (w.extractLsb' 80 16))) ∧
  ∀ (x : Half) (s : State), exec (.scrollstart x) s = .next { s with
    queue := s.queue ++ [.sel, .cmd s.cfg.vscrsadd, .data (x.extractLsb' 8 8), .data (x.extractLsb' 0 8), .rel] }

/-! ### Rectangles -/

/-- 42 R112: RECTFILL fills the part of the rectangle inside the mask in one window transaction of `13 + 2n` events, every
word the colour, or does nothing when no pixel is common (which an inverted rectangle never has). -/
def Obligations.RectfillRule : Prop :=
  (∀ w : CmdWord, w.extractLsb' 96 8 = 0x30#8 → decode w = .instr (.rectfill (w.extractLsb' 80 16).toInt
    (w.extractLsb' 64 16).toInt (w.extractLsb' 48 16).toInt (w.extractLsb' 32 16).toInt (w.extractLsb' 0 16))) ∧
  ∀ (l r t b : Int) (c : Colour) (s : State), maskInv s = true →
    ((∃ x y, (l ≤ x ∧ x ≤ r ∧ t ≤ y ∧ y ≤ b) ∧ s.mask.has x y = true) →
      ∃ (n : Nat) (es : List BusEvent),
        exec (.rectfill l r t b c) s = .next { s with queue := s.queue ++ es } ∧
        (n : Int) = (min r s.mask.r - max l s.mask.l + 1) * (min b s.mask.b - max t s.mask.t + 1) ∧
        es = windowTx s.cfg { l := max l s.mask.l, r := min r s.mask.r, t := max t s.mask.t, b := min b s.mask.b }
          (List.replicate n c) ∧
        es.length = 13 + 2 * n) ∧
    (¬ (∃ x y, (l ≤ x ∧ x ≤ r ∧ t ≤ y ∧ y ≤ b) ∧ s.mask.has x y = true) → exec (.rectfill l r t b c) s = .next s)

/-- 42 R113: RECT rejects an inverted rectangle, and otherwise is RECTFILL of the left column, the right column, the top row
and the bottom row, one after the other. -/
def Obligations.RectRule : Prop :=
  (∀ w : CmdWord, w.extractLsb' 96 8 = 0x31#8 → decode w = .instr (.rect (w.extractLsb' 80 16).toInt
    (w.extractLsb' 64 16).toInt (w.extractLsb' 48 16).toInt (w.extractLsb' 32 16).toInt (w.extractLsb' 0 16))) ∧
  ∀ (l r t b : Int) (c : Colour) (s : State),
    (l > r ∨ t > b → exec (.rect l r t b c) s = .next s) ∧
    (l ≤ r ∧ t ≤ b → ∃ s1 s2 s3 s4,
      exec (.rectfill l l t b c) s = .next s1 ∧ exec (.rectfill r r t b c) s1 = .next s2 ∧
      exec (.rectfill l r t t c) s2 = .next s3 ∧ exec (.rectfill l r b b c) s3 = .next s4 ∧
      exec (.rect l r t b c) s = .next s4)

/-- 42 R114: BLT sends, for every pixel of the clipped rectangle in row-major order, the source word that belongs to it in
the unclipped rectangle, in one window transaction; it does nothing when no pixel is common. -/
def Obligations.BltRule : Prop :=
  (∀ w : CmdWord, w.extractLsb' 96 8 = 0x32#8 → decode w = .instr (.blt (w.extractLsb' 80 16).toInt
    (w.extractLsb' 64 16).toInt (w.extractLsb' 48 16).toInt (w.extractLsb' 32 16).toInt (w.extractLsb' 0 32))) ∧
  ∀ (l r t b : Int) (src : Addr) (s : State), maskInv s = true →
    ((∃ x y, (l ≤ x ∧ x ≤ r ∧ t ≤ y ∧ y ≤ b) ∧ s.mask.has x y = true) →
      ∃ ws : List Colour,
        exec (.blt l r t b src) s = .next { s with
          queue := s.queue ++ windowTx s.cfg
            { l := max l s.mask.l, r := min r s.mask.r, t := max t s.mask.t, b := min b s.mask.b } ws } ∧
        ws = (interval (max t s.mask.t) (min b s.mask.b)).flatMap (fun y =>
          (interval (max l s.mask.l) (min r s.mask.r)).map fun x =>
            s.srcAt (src.toNat + (y - t) * (r - l + 1) + (x - l))) ∧
        (ws.length : Int) = (min r s.mask.r - max l s.mask.l + 1) * (min b s.mask.b - max t s.mask.t + 1)) ∧
    (¬ (∃ x y, (l ≤ x ∧ x ≤ r ∧ t ≤ y ∧ y ≤ b) ∧ s.mask.has x y = true) → exec (.blt l r t b src) s = .next s)

/-- 42 R115 (the spec marks it [derived: from R114]): the words of a BLT are those of the source's pointer description: the
read pointer starts `dt` rows and `dl` words in, each row reads consecutive words, and the next row starts `sw` words after
the row's start. -/
def Obligations.BltPointerDescription : Prop :=
  ∀ (l r t b : Int) (src : Addr) (s : State) (w : Rect) (dl dt sw : Int),
    s.clipRect { l := l, r := r, t := t, b := b } = some w → dl = w.l - l → dt = w.t - t → sw = r - l + 1 →
    0 ≤ dl ∧ 0 ≤ dt ∧
    exec (.blt l r t b src) s = .next { s with
      queue := s.queue ++ windowTx s.cfg w
        ((List.range (w.b - w.t + 1).toNat).flatMap fun i : Nat => (List.range (w.r - w.l + 1).toNat).map fun j : Nat =>
          s.srcAt ((src.toNat + dt * sw + dl) + i * sw + j)) }

/-- 42 R116 (the spec marks it [derived: from R83, R112, R113 and R114]): RECTFILL and BLT address exactly the intersection
of the rectangle with the mask, each pixel once; RECT exactly the union of the four clipped edges; none addresses a pixel
outside the mask. -/
def Obligations.RectangleOperationsPixelSet : Prop :=
  ∀ (l r t b : Int) (s : State), maskInv s = true → s.queue = [] →
    (∀ c : Colour, ∃ u, exec (.rectfill l r t b c) s = .next u ∧ (positions s.cfg u.queue).Nodup ∧
      (∀ x y, (x, y) ∈ positions s.cfg u.queue ↔ (l ≤ x ∧ x ≤ r ∧ t ≤ y ∧ y ≤ b) ∧ s.mask.has x y = true) ∧
      ∀ p ∈ pixels s.cfg u.queue, p.colour = c) ∧
    (∀ src : Addr, ∃ u, exec (.blt l r t b src) s = .next u ∧ (positions s.cfg u.queue).Nodup ∧
      (∀ x y, (x, y) ∈ positions s.cfg u.queue ↔ (l ≤ x ∧ x ≤ r ∧ t ≤ y ∧ y ≤ b) ∧ s.mask.has x y = true) ∧
      ∀ p ∈ pixels s.cfg u.queue, p.colour = s.srcAt (src.toNat + (p.y - t) * (r - l + 1) + (p.x - l))) ∧
    (∀ c : Colour, ∃ u, exec (.rect l r t b c) s = .next u ∧
      (∀ x y, (x, y) ∈ positions s.cfg u.queue ↔
        (((x = l ∨ x = r) ∧ t ≤ y ∧ y ≤ b ∧ l ≤ r) ∨ ((y = t ∨ y = b) ∧ l ≤ x ∧ x ≤ r ∧ t ≤ b)) ∧
          s.mask.has x y = true) ∧
      ∀ p ∈ pixels s.cfg u.queue, p.colour = c)

/-! ### Lines -/

/-- 43 R121: the steps of DrawLine in closed form: step `i` has the major coordinate `i` along and the minor coordinate
`floor((m1 * 65536 + 32768 + i * inc) / 65536)` with `inc` the quotient rounded toward zero; ties take x as major.
The tie rule, the start, the quotient and the floor are the spec's own decision (D14); the quotient toward zero and the floor
are general knowledge by its own mark (GK3): PRESUMED, log 21. -/
def Obligations.LineStepsClosedForm : Prop :=
  ∀ x1 y1 x2 y2 : Int, ∃ n : Nat, (n : Int) = max (x2 - x1).natAbs (y2 - y1).natAbs ∧
    ((y2 - y1).natAbs ≤ (x2 - x1).natAbs → lineSteps x1 y1 x2 y2 = (List.range (n + 1)).map fun i : Nat =>
      (x1 + i * (x2 - x1).sign, Int.fdiv (y1 * 65536 + 32768 + i * Int.tdiv ((y2 - y1) * 65536) n) 65536)) ∧
    ((x2 - x1).natAbs < (y2 - y1).natAbs → lineSteps x1 y1 x2 y2 = (List.range (n + 1)).map fun i : Nat =>
      (Int.fdiv (x1 * 65536 + 32768 + i * Int.tdiv ((x2 - x1) * 65536) n) 65536, y1 + i * (y2 - y1).sign))

/-- 43 R122 (a), (b), (e), marked [derived: from R121] in the spec: `n + 1` steps; the first is `(x1, y1)`; the last has the
major coordinate of `(x2, y2)`; `n = 0` gives the one step at `(x1, y1)`. -/
def Obligations.LineEndsOnMajorCoordinate : Prop :=
  ∀ (x1 y1 x2 y2 : Int) (n : Nat), n = max (x2 - x1).natAbs (y2 - y1).natAbs →
    (lineSteps x1 y1 x2 y2).length = n + 1 ∧ (lineSteps x1 y1 x2 y2)[0]? = some (x1, y1) ∧
    (∃ p, (lineSteps x1 y1 x2 y2)[n]? = some p ∧
      ((y2 - y1).natAbs ≤ (x2 - x1).natAbs → p.1 = x2) ∧ ((x2 - x1).natAbs < (y2 - y1).natAbs → p.2 = y2)) ∧
    (n = 0 → lineSteps x1 y1 x2 y2 = [(x1, y1)])

/-- 43 R122 (c), marked [derived: from R121] in the spec (with the division and the floor of log 21): a line of at most
32769 steps ends exactly on `(x2, y2)`; a longer one misses the minor coordinate by at most 1. -/
def Obligations.LineEndPointExact : Prop :=
  ∀ (x1 y1 x2 y2 : Int) (n : Nat), n = max (x2 - x1).natAbs (y2 - y1).natAbs →
    (n ≤ 32768 → (lineSteps x1 y1 x2 y2)[n]? = some (x2, y2)) ∧
    (n ≤ 65535 → ∃ p, (lineSteps x1 y1 x2 y2)[n]? = some p ∧ (p.1 - x2).natAbs ≤ 1 ∧ (p.2 - y2).natAbs ≤ 1)

/-- 43 R122 (d), marked [derived: from R121] in the spec (with the division and the floor of log 21): on a tie the steps
are the exact diagonal. -/
def Obligations.LineTieIsDiagonal : Prop :=
  ∀ x1 y1 x2 y2 : Int, (x2 - x1).natAbs = (y2 - y1).natAbs →
    lineSteps x1 y1 x2 y2 = (List.range ((x2 - x1).natAbs + 1)).map fun i : Nat =>
      (x1 + i * (x2 - x1).sign, y1 + i * (y2 - y1).sign)

/-- 43 R122 (h), marked [derived: from R121] in the spec (with the division and the floor of log 21): successive steps
differ by exactly 1 in the major coordinate and by at most 1 in the minor one. -/
def Obligations.LineStepsAreAdjacent : Prop :=
  ∀ (x1 y1 x2 y2 : Int) (i : Nat) (p q : Int × Int),
    (lineSteps x1 y1 x2 y2)[i]? = some p → (lineSteps x1 y1 x2 y2)[i + 1]? = some q →
    ((y2 - y1).natAbs ≤ (x2 - x1).natAbs → (q.1 - p.1).natAbs = 1 ∧ (q.2 - p.2).natAbs ≤ 1) ∧
    ((x2 - x1).natAbs < (y2 - y1).natAbs → (q.2 - p.2).natAbs = 1 ∧ (q.1 - p.1).natAbs ≤ 1)

/-- 43 R122 (g), marked [derived: from R121] in the spec (with the division of log 21): for 16-bit coordinates the
scaled minor distance, the increment and the accumulator at every step fit 34 bits signed. -/
def Obligations.LineAccumulatorFits34Bits : Prop :=
  ∀ (m1 m2 : Int) (n i : Nat), isS16 m1 = true → isS16 m2 = true → (m2 - m1).natAbs ≤ n → i ≤ n →
    ((m2 - m1) * 65536).natAbs < 2 ^ 32 ∧ (lineInc (m2 - m1) n).natAbs < 2 ^ 33 ∧
    -(2 ^ 33) ≤ m1 * 65536 + 32768 + i * lineInc (m2 - m1) n ∧
    m1 * 65536 + 32768 + i * lineInc (m2 - m1) n < 2 ^ 33

/-- 43 R125: MOVETO sets the pen to the given point, on or off the screen, and does nothing else. -/
def Obligations.MovetoRule : Prop :=
  (∀ w : CmdWord, w.extractLsb' 96 8 = 0x40#8 →
    decode w = .instr (.moveto (w.extractLsb' 80 16).toInt (w.extractLsb' 64 16).toInt)) ∧
  ∀ (x y : Int) (s : State), isS16 x = true → isS16 y = true →
    ∃ px py : Half, px.toInt = x ∧ py.toInt = y ∧ exec (.moveto x y) s = .next { s with penX := px, penY := py }

/-- 43 R126: LINETO draws the line from the pen, and then the pen is the given point, whatever was drawn. -/
def Obligations.LinetoRule : Prop :=
  (∀ w : CmdWord, w.extractLsb' 96 8 = 0x41#8 →
    decode w = .instr (.lineto (w.extractLsb' 80 16).toInt (w.extractLsb' 64 16).toInt (w.extractLsb' 0 16))) ∧
  ∀ (x y : Int) (c : Colour) (s : State), isS16 x = true → isS16 y = true →
    ∃ px py : Half, px.toInt = x ∧ py.toInt = y ∧
      exec (.lineto x y c) s = .next { s with
        queue := s.queue ++ ((lineSteps s.penX.toInt s.penY.toInt x y).filter fun p => s.inMask p.1 p.2).flatMap
          (fun p => windowTx s.cfg { l := p.1, r := p.1, t := p.2, b := p.2 } [c])
        penX := px
        penY := py }

/-- 43 R127: LINE draws the line between its two points and leaves the pen at the second, as MOVETO to the first and then
LINETO to the second would. -/
def Obligations.LineRule : Prop :=
  (∀ w : CmdWord, w.extractLsb' 96 8 = 0x42#8 → decode w = .instr (.line (w.extractLsb' 80 16).toInt
    (w.extractLsb' 64 16).toInt (w.extractLsb' 48 16).toInt (w.extractLsb' 32 16).toInt (w.extractLsb' 0 16))) ∧
  ∀ (x1 y1 x2 y2 : Int) (c : Colour) (s : State),
    isS16 x1 = true → isS16 y1 = true → isS16 x2 = true → isS16 y2 = true →
    ∃ (px py : Half) (u : State), px.toInt = x2 ∧ py.toInt = y2 ∧
      exec (.line x1 y1 x2 y2 c) s = .next { s with
        queue := s.queue ++ ((lineSteps x1 y1 x2 y2).filter fun p => s.inMask p.1 p.2).flatMap
          (fun p => windowTx s.cfg { l := p.1, r := p.1, t := p.2, b := p.2 } [c])
        penX := px
        penY := py } ∧
      exec (.moveto x1 y1) s = .next u ∧ exec (.lineto x2 y2 c) u = exec (.line x1 y1 x2 y2 c) s

/-- 43 R123: a line emits 15 events for each of its steps that lies in the mask, in step order, and nothing else: its pixels
are exactly the steps in the mask. -/
def Obligations.LineBusTraffic : Prop :=
  ∀ (x1 y1 x2 y2 : Int) (c : Colour) (s : State), maskInv s = true → s.queue = [] →
    ∃ u, exec (.line x1 y1 x2 y2 c) s = .next u ∧
      u.queue.length = 15 * ((lineSteps x1 y1 x2 y2).filter fun p => s.inMask p.1 p.2).length ∧
      pixels s.cfg u.queue =
        ((lineSteps x1 y1 x2 y2).filter fun p => s.inMask p.1 p.2).map fun p => { x := p.1, y := p.2, colour := c }

/-! ### Text -/

/-- 44 R132: FONTFACE registers the table if its first six bytes equal the signature, and otherwise changes nothing. -/
def Obligations.FontfaceRule : Prop :=
  (∀ w : CmdWord, w.extractLsb' 96 8 = 0x50#8 → decode w = .instr (.fontface (w.extractLsb' 0 32))) ∧
  ∀ (base : Addr) (s : State),
    ((∀ i : Fin 6, s.fontAt (base.toNat + i.val) = s.cfg.fontSig[i.val]) →
      exec (.fontface base) s = .next { s with
        fontBase := base, fw := s.fontAt (base.toNat + 14), fh := s.fontAt (base.toNat + 15), fontValid := true }) ∧
    (¬ (∀ i : Fin 6, s.fontAt (base.toNat + i.val) = s.cfg.fontSig[i.val]) → exec (.fontface base) s = .next s)

/-- 44 R134: FONTCOLOR replaces the packed glyph colour and does nothing else; the background is its high half. -/
def Obligations.FontcolorRule : Prop :=
  (∀ w : CmdWord, w.extractLsb' 96 8 = 0x51#8 → decode w = .instr (.fontcolor (w.extractLsb' 0 32))) ∧
  ∀ (bg fg : Colour) (s : State), ∃ t, exec (.fontcolor (bg ++ fg)) s = .next t ∧ t = { s with gcolor := bg ++ fg } ∧
    t.background = bg ∧ t.foreground = fg

/-- 44 R135: LOCATE sets the cursor to `(col * FW, row * FH)` modulo 2^16; with no font (FW = FH = 0) to the origin. -/
def Obligations.LocateRule : Prop :=
  (∀ w : CmdWord, w.extractLsb' 96 8 = 0x52#8 →
    decode w = .instr (.locate (w.extractLsb' 80 16).toNat (w.extractLsb' 64 16).toNat)) ∧
  ∀ (col row : Nat) (s : State), ∃ cx cy : Half,
    cx.toNat = col * s.fw.toNat % 65536 ∧ cy.toNat = row * s.fh.toNat % 65536 ∧
    exec (.locate col row) s = .next { s with curX := cx, curY := cy }

/-- 44 R137: the four control characters act in every state: `\n` goes down by the cell height (modulo 2^16) to column 0,
`\r` to column 0, `\b` left by the cell width but not below 0, `\f` fills the whole logical screen with black and homes the
cursor. No other code is special: each is drawn as a glyph. -/
def Obligations.ControlCharacters : Prop :=
  ∀ s : State,
    (∃ cy : Half, cy.toNat = (s.curY.toNat + s.fh.toNat) % 65536 ∧
      exec (.putchar 0x0A) s = .next { s with curX := 0, curY := cy }) ∧
    exec (.putchar 0x0D) s = .next { s with curX := 0 } ∧
    (∃ cx : Half, cx.toInt = max (s.curX.toInt - s.fw.toNat) 0 ∧
      exec (.putchar 0x08) s = .next { s with curX := cx }) ∧
    exec (.putchar 0x0C) s = .next { s with
      queue := s.queue ++ windowTx s.cfg { l := 0, r := s.w - 1, t := 0, b := s.h - 1 }
        (List.replicate (s.w.toNat * s.h.toNat) 0x0000)
      curX := 0
      curY := 0 } ∧
    ∀ ch : Byte, ch ∉ [0x0A#8, 0x0D#8, 0x08#8, 0x0C#8] → exec (.putchar ch) s = .next (s.printGlyph ch)

/-- 44 R139, R140: a printable character with no font, with the cursor outside the logical screen or with a zero-size cell
changes nothing. -/
def Obligations.PrintableDrops : Prop :=
  ∀ (ch : Byte) (s : State), ch ∉ [0x0A#8, 0x0D#8, 0x08#8, 0x0C#8] →
    (s.fontValid = false ∨ s.curX.toInt < 0 ∨ s.w ≤ s.curX.toInt ∨ s.curY.toInt < 0 ∨ s.h ≤ s.curY.toInt ∨
      s.fw = 0 ∨ s.fh = 0) →
    exec (.putchar ch) s = .next s

/-- 44 R130, R136, R138, R141 to R143: otherwise the glyph, cut at the right and bottom edges of the screen only, is sent as
one window row by row, each colour chosen by its bit of the table, and the cursor moves right by the width drawn. -/
def Obligations.PrintableDrawsGlyph : Prop :=
  (∀ w : CmdWord, w.extractLsb' 96 8 = 0x53#8 → decode w = .instr (.putchar (w.extractLsb' 80 8))) ∧
  ∀ (ch : Byte) (s : State) (gw gh bw : Nat), ch ∉ [0x0A#8, 0x0D#8, 0x08#8, 0x0C#8] → s.fontValid = true →
    0 ≤ s.curX.toInt → s.curX.toInt < s.w → 0 ≤ s.curY.toInt → s.curY.toInt < s.h → s.fw ≠ 0 → s.fh ≠ 0 →
    (gw : Int) = min (s.fw.toNat : Int) (s.w - s.curX.toInt) → (gh : Int) = min (s.fh.toNat : Int) (s.h - s.curY.toInt) →
    bw = (s.fw.toNat + 7) / 8 →
    ∃ (cx : Half) (ws : List Colour), cx.toNat = (s.curX.toNat + gw) % 65536 ∧ ws.length = gw * gh ∧
      ws = (List.range gh).flatMap (fun row : Nat => (List.range gw).map fun col : Nat =>
        if (s.fontAt (s.fontBase.toNat + 17 + ((ch.toNat : Int) - 0x20) * bw * s.fh.toNat + (row * bw : Nat)
          + (col / 8 : Nat))).getLsbD (7 - col % 8)
        then s.gcolor.extractLsb' 0 16 else s.gcolor.extractLsb' 16 16) ∧
      exec (.putchar ch) s = .next { s with
        queue := s.queue ++ windowTx s.cfg
          { l := s.curX.toInt, r := s.curX.toInt + gw - 1, t := s.curY.toInt, b := s.curY.toInt + gh - 1 } ws
        curX := cx }

/-- 44 R141, 90_conflicts C2: PUTCHAR, form feed included, never reads the mask. -/
def Obligations.TextIgnoresMask : Prop :=
  ∀ (ch : Byte) (s t : State) (l r u b : Half), exec (.putchar ch) s = .next t →
    exec (.putchar ch) { s with maskL := l, maskR := r, maskT := u, maskB := b } =
      .next { t with maskL := l, maskR := r, maskT := u, maskB := b }

/-- 44 R144, R145: GETFW and GETFH respond FW and FH, each as one 16-bit value, and do nothing else (`respPending` is the
model's own mark that the operation responds, log 6). -/
def Obligations.CellSizeGetters : Prop :=
  (∀ w : CmdWord, (w.extractLsb' 96 8 = 0x54#8 → decode w = .instr .getfw) ∧
    (w.extractLsb' 96 8 = 0x55#8 → decode w = .instr .getfh)) ∧
  ∀ s : State, ∃ v u : Half, v.toNat = s.fw.toNat ∧ u.toNat = s.fh.toNat ∧
    exec .getfw s = .next { s with resp := v, responded := v :: s.responded, respPending := true } ∧
    exec .getfh s = .next { s with resp := u, responded := u :: s.responded, respPending := true }

/-! ### Lifecycle -/

/-- 45 R151: INIT, its events in the source's order and the state it leaves; nothing else changes. -/
def Obligations.InitRule : Prop :=
  (∀ w : CmdWord, w.extractLsb' 96 8 = 0x01#8 → decode w = .instr .init) ∧
  ∀ s : State, ∃ t, exec .init s = .next t ∧
    t.queue = s.queue
      ++ [.gpioSetup, .busConfig, .rst false, .wait s.cfg.resetLow, .rst true, .wait s.cfg.resetWait]
      ++ (s.cfg.initTable.flatMap fun e =>
        [.sel, .cmd e.cmd] ++ e.data.map .data ++ [.rel] ++ (if e.wait = 0 then [] else [.wait e.wait]))
      ++ windowTx s.cfg { l := 0, r := s.cfg.panelW - 1, t := 0, b := s.cfg.panelH - 1 }
        (List.replicate (s.cfg.panelW * s.cfg.panelH) 0x0000)
      ++ [.sel, .cmd s.cfg.dispon, .rel] ∧
    t.orient = 0 ∧ t.mask = { l := 0, r := s.cfg.panelW - 1, t := 0, b := s.cfg.panelH - 1 } ∧
    t.penX = 0 ∧ t.penY = 0 ∧ t.curX = 0 ∧ t.curY = 0 ∧
    ((∀ i : Fin 6, s.fontAt (s.cfg.defaultFontBase.toNat + i.val) = s.cfg.fontSig[i.val]) →
      t.fontValid = true ∧ t.fontBase = s.cfg.defaultFontBase ∧
      t.fw = s.fontAt (s.cfg.defaultFontBase.toNat + 14) ∧ t.fh = s.fontAt (s.cfg.defaultFontBase.toNat + 15)) ∧
    (¬ (∀ i : Fin 6, s.fontAt (s.cfg.defaultFontBase.toNat + i.val) = s.cfg.fontSig[i.val]) →
      t.fontValid = s.fontValid ∧ t.fontBase = s.fontBase ∧ t.fw = s.fw ∧ t.fh = s.fh) ∧
    t = { s with
      queue := t.queue, orient := t.orient, maskL := t.maskL, maskR := t.maskR, maskT := t.maskT, maskB := t.maskB
      penX := t.penX, penY := t.penY, curX := t.curX, curY := t.curY
      fontValid := t.fontValid, fontBase := t.fontBase, fw := t.fw, fh := t.fh }

/-- 45 R152: the two delays of the reset pulse are at least 10 and 150 time units, whatever the configuration. -/
def Obligations.ResetPulseDelays : Prop :=
  ∀ s : State, s.queue = [] → ∃ t a b, exec .init s = .next t ∧ 10 ≤ a ∧ 150 ≤ b ∧
    t.queue.take 6 = [.gpioSetup, .busConfig, .rst false, .wait a, .rst true, .wait b]

/-- 45 R156: SETORIENT with `o <= 3` writes the scan-direction register (4 events), makes `o` the orientation, and resets
mask, pen and cursor; with `o > 3` it does nothing. -/
def Obligations.SetorientRule : Prop :=
  (∀ w : CmdWord, w.extractLsb' 96 8 = 0x02#8 → decode w = .instr (.setorient (w.extractLsb' 80 16).toNat)) ∧
  ∀ (o : Nat) (s : State),
    (o > 3 → exec (.setorient o) s = .next s) ∧
    (o ≤ 3 → ∃ (v : BitVec 2) (d : Byte) (mr mb : Half), v.toNat = o ∧ s.cfg.orientReg.toList[o]? = some d ∧
      mr.toInt = (if o % 2 = 0 then s.cfg.panelW else s.cfg.panelH) - 1 ∧
      mb.toInt = (if o % 2 = 0 then s.cfg.panelH else s.cfg.panelW) - 1 ∧
      exec (.setorient o) s = .next { s with
        queue := s.queue ++ [.sel, .cmd s.cfg.madctl, .data d, .rel]
        orient := v, maskL := 0, maskR := mr, maskT := 0, maskB := mb
        penX := 0, penY := 0, curX := 0, curY := 0 })

/-- 45 R157: the orientations 1, 2, 3, 0 in turn each reset the mask to the full screen and pen and cursor to the origin,
and the sizes that GETW and GETH answer swap between 0/2 and 1/3. -/
def Obligations.OrientationCycle : Prop :=
  ∀ s : State, ∃ s1 s2 s3 s4, exec (.setorient 1) s = .next s1 ∧ exec (.setorient 2) s1 = .next s2 ∧
    exec (.setorient 3) s2 = .next s3 ∧ exec (.setorient 0) s3 = .next s4 ∧
    (∀ t ∈ [s1, s2, s3, s4], t.mask = { l := 0, r := t.w - 1, t := 0, b := t.h - 1 } ∧
      t.penX = 0 ∧ t.penY = 0 ∧ t.curX = 0 ∧ t.curY = 0) ∧
    (∀ t ∈ [s1, s3], t.w = s.cfg.panelH ∧ t.h = s.cfg.panelW ∧
      (∃ u, exec .getw t = .next u ∧ u.resp.toNat = s.cfg.panelH) ∧
      ∃ u, exec .geth t = .next u ∧ u.resp.toNat = s.cfg.panelW) ∧
    ∀ t ∈ [s2, s4], t.w = s.cfg.panelW ∧ t.h = s.cfg.panelH ∧
      (∃ u, exec .getw t = .next u ∧ u.resp.toNat = s.cfg.panelW) ∧
      ∃ u, exec .geth t = .next u ∧ u.resp.toNat = s.cfg.panelH

/-- 10_state R13, 45 R159, R160: GETW and GETH respond the logical width and height, swapped when ORIENT[0] = 1, unsigned,
and do nothing else (`respPending` is log 6's). -/
def Obligations.ScreenSizeGetters : Prop :=
  (∀ w : CmdWord, (w.extractLsb' 96 8 = 0x03#8 → decode w = .instr .getw) ∧
    (w.extractLsb' 96 8 = 0x04#8 → decode w = .instr .geth)) ∧
  ∀ s : State, ∃ v u : Half,
    v.toNat = (if s.orient.toNat % 2 = 0 then s.cfg.panelW else s.cfg.panelH) ∧
    u.toNat = (if s.orient.toNat % 2 = 0 then s.cfg.panelH else s.cfg.panelW) ∧
    exec .getw s = .next { s with resp := v, responded := v :: s.responded, respPending := true } ∧
    exec .geth s = .next { s with resp := u, responded := u :: s.responded, respPending := true }

/-- 45 R162, R163 (the places of the three colours in the word are general knowledge by the spec's own mark, GK2; log 21):
PACKRGB responds `((r >> 3) << 11) | ((g >> 2) << 5) | (b >> 3)` of the low bytes of A, B and C, and does nothing else. -/
def Obligations.PackrgbRule : Prop :=
  (∀ w : CmdWord, w.extractLsb' 96 8 = 0x05#8 →
    decode w = .instr (.packrgb (w.extractLsb' 80 8) (w.extractLsb' 64 8) (w.extractLsb' 48 8))) ∧
  ∀ (r g b : Byte) (s : State), ∃ v : Half,
    v.toNat = r.toNat / 8 * 2048 + g.toNat / 4 * 32 + b.toNat / 8 ∧
    exec (.packrgb r g b) s = .next { s with resp := v, responded := v :: s.responded, respPending := true }
end

