-- ==== Sys2Proof/Laws/Bus.lean ====
section
/-! SUPPORT. Laws/Bus.lean: for each event sequence of Machine/Bus.lean its length, what it does to the lines, and its place
in the trace grammar. -/

namespace Sys2Proof.Machine

open Sys2Proof.Safety

theorem length_flatMap_d16 (ws : List Colour) : (ws.flatMap d16).length = 2 * ws.length := by
  induction ws with
  | nil => rfl
  | cons w ws ih => rw [List.flatMap_cons, List.length_append, ih, List.length_cons]; simp [d16]; omega

/-- A window transaction with `n` words has `13 + 2n` events (41 R97). -/
theorem length_windowTx (c : Cfg) (q : Rect) (ws : List Colour) : (windowTx c q ws).length = 13 + 2 * ws.length := by
  rw [windowTx, List.length_append, List.length_append, length_flatMap_d16]
  simp [win, d16]
  omega

theorem length_cmdx (b : Byte) (ds : List Byte) : (cmdx b ds).length = 3 + ds.length := by
  simp [cmdx]
  omega

/-! ### The lines. -/

theorem Lines.afterAll_append (x : Lines) (es fs : List BusEvent) :
    x.afterAll (es ++ fs) = (x.afterAll es).afterAll fs := List.foldl_append

theorem Lines.afterAll_cons (x : Lines) (e : BusEvent) (es : List BusEvent) :
    x.afterAll (e :: es) = (x.after e).afterAll es := rfl

/-- A data byte moves no line. -/
theorem Lines.afterAll_data (x : Lines) (ds : List Byte) : x.afterAll (ds.map .data) = x := by
  induction ds with
  | nil => rfl
  | cons d ds ih => exact ih

theorem Lines.afterAll_d16s (x : Lines) (ws : List Colour) : x.afterAll (ws.flatMap d16) = x := by
  induction ws with
  | nil => rfl
  | cons w ws ih =>
    rw [List.flatMap_cons, Lines.afterAll_append]
    exact ih

/-- A window transaction starts and ends with idle lines. -/
theorem Lines.afterAll_windowTx (c : Cfg) (q : Rect) (ws : List Colour) :
    Lines.idle.afterAll (windowTx c q ws) = Lines.idle := by
  rw [windowTx, Lines.afterAll_append, Lines.afterAll_append, Lines.afterAll_d16s]
  rfl

theorem Lines.afterAll_cmdx (b : Byte) (ds : List Byte) : Lines.idle.afterAll (cmdx b ds) = Lines.idle := by
  rw [cmdx, Lines.afterAll_append, Lines.afterAll_append, Lines.afterAll_data]
  rfl

/-! ### The grammar. -/

theorem Phase.run_append (p : Phase) (es fs : List BusEvent) :
    p.run (es ++ fs) = (p.run es).bind fun q => q.run fs := by
  induction es generalizing p with
  | nil => rfl
  | cons e es ih =>
    simp only [List.cons_append, Phase.run]
    cases p.next e with
    | none => rfl
    | some q => exact ih q

/-- Data bytes stay inside the frame. -/
theorem Phase.run_data (ds : List Byte) : Phase.framed.run (ds.map .data) = some .framed := by
  induction ds with
  | nil => rfl
  | cons d ds ih => exact ih

theorem Phase.run_d16s (ws : List Colour) : Phase.framed.run (ws.flatMap d16) = some .framed := by
  induction ws with
  | nil => rfl
  | cons w ws ih =>
    rw [List.flatMap_cons, Phase.run_append]
    exact ih

/-- A window transaction is one item of the grammar. -/
theorem Phase.run_windowTx (c : Cfg) (q : Rect) (ws : List Colour) :
    Phase.released.run (windowTx c q ws) = some .released := by
  rw [windowTx, Phase.run_append, Phase.run_append]
  have h : Phase.released.run (win c q) = some .framed := rfl
  rw [h, Option.bind_some, Phase.run_d16s]
  rfl

theorem Phase.run_cmdx (b : Byte) (ds : List Byte) : Phase.released.run (cmdx b ds) = some .released := by
  rw [cmdx, Phase.run_append, Phase.run_append]
  have h : Phase.released.run [BusEvent.sel, .cmd b] = some .framed := rfl
  rw [h, Option.bind_some, Phase.run_data]
  rfl

end Sys2Proof.Machine
end

