-- ==== Sys2Proof/Laws/Operands.lean ====
section
/-! SUPPORT. Laws/Operands.lean: one lemma for each arithmetic helper of Machine/Operands.lean. -/

namespace Sys2Proof.Machine

/-- A value in the range of a 16-bit register is kept. -/
theorem toInt_wrap16 {n : Int} (h1 : -32768 ≤ n) (h2 : n ≤ 32767) : (wrap16 n).toInt = n := by
  rw [wrap16, BitVec.toInt_ofInt, Int.bmod_def]
  omega

/-- A register's value, read and written back, is the register. -/
theorem wrap16_toInt (r : Half) : wrap16 r.toInt = r := BitVec.ofInt_toInt

/-- A value that is no negative coordinate is sent on the bus unchanged (40 R83). -/
theorem toNat_wrap16 {n : Int} (h1 : 0 ≤ n) (h2 : n ≤ 65535) : ((wrap16 n).toNat : Int) = n := by
  rw [wrap16, BitVec.toNat_ofInt]
  omega

theorem le_toInt (r : Half) : -32768 ≤ r.toInt := by
  have := BitVec.le_toInt r
  omega

theorem toInt_le (r : Half) : r.toInt ≤ 32767 := by
  have := BitVec.toInt_lt (x := r)
  omega

/-- `tdiv` is the division that rounds toward zero. -/
theorem tdiv_eq_tdiv (a b : Int) : tdiv a b = Int.tdiv a b := by
  unfold tdiv
  split
  · next h => rw [Int.tdiv_eq_ediv_of_nonneg h]
  · next h =>
    have := Int.tdiv_eq_ediv_of_nonneg (a := -a) (b := b) (by omega)
    rw [← this, Int.neg_tdiv, Int.neg_neg]

theorem length_interval (a b : Int) : (interval a b).length = (b - a + 1).toNat := by
  simp [interval]

theorem mem_interval {a b x : Int} : x ∈ interval a b ↔ a ≤ x ∧ x ≤ b := by
  simp only [interval, List.mem_map, List.mem_range]
  constructor
  · rintro ⟨i, hi, rfl⟩
    constructor
    · exact Int.le_add_of_nonneg_right (Int.natCast_nonneg i)
    · have : (i : Int) < b - a + 1 := by omega
      show a + (i : Int) ≤ b
      omega
  · intro h
    refine ⟨(x - a).toNat, by omega, ?_⟩
    show a + ((x - a).toNat : Int) = x
    omega

theorem nodup_interval (a b : Int) : (interval a b).Nodup := by
  refine List.Nodup.map (fun i j h => ?_) List.nodup_range
  have h' : a + (i : Int) = a + (j : Int) := h
  omega

theorem Rect.has_iff {q : Rect} {x y : Int} : q.has x y = true ↔ q.l ≤ x ∧ x ≤ q.r ∧ q.t ≤ y ∧ y ≤ q.b := by
  simp [Rect.has, and_assoc]

theorem Rect.mem_points {q : Rect} {p : Int × Int} : p ∈ q.points ↔ q.has p.1 p.2 = true := by
  obtain ⟨x, y⟩ := p
  simp only [Rect.points, List.mem_flatMap, List.mem_map, mem_interval, Rect.has_iff, Prod.mk.injEq]
  constructor
  · rintro ⟨v, hv, u, hu, rfl, rfl⟩
    exact ⟨hu.1, hu.2, hv.1, hv.2⟩
  · rintro ⟨h1, h2, h3, h4⟩
    exact ⟨y, ⟨h3, h4⟩, x, ⟨h1, h2⟩, rfl, rfl⟩

theorem Rect.length_points (q : Rect) : q.points.length = q.count := by
  simp [Rect.points, Rect.count, List.length_flatMap, length_interval, Nat.mul_comm]

end Sys2Proof.Machine
end

