-- ==== Sys2Proof/Laws/Clip.lean ====
section
/-! SUPPORT. Laws/Clip.lean: what ClipRect answers, and what the body of SETMASK can do. -/

namespace Sys2Proof.Machine

/-- ClipRect answers a rectangle only for a request that is not inverted and meets the mask, and then clamps each edge. -/
theorem State.clipRect_some {s : State} {q w : Rect} (h : s.clipRect q = some w) :
    (q.l ≤ q.r ∧ q.t ≤ q.b) ∧ (s.mask.l ≤ q.r ∧ q.l ≤ s.mask.r ∧ s.mask.t ≤ q.b ∧ q.t ≤ s.mask.b) ∧
      w = { l := max q.l s.mask.l, r := min q.r s.mask.r, t := max q.t s.mask.t, b := min q.b s.mask.b } := by
  simp only [State.clipRect] at h
  split at h
  · cases h
  · split at h
    · cases h
    · exact ⟨by omega, by omega, (Option.some.inj h).symm⟩

/-- ClipRect answers none exactly for an inverted request or one that lies on one side of the mask. -/
theorem State.clipRect_none {s : State} {q : Rect} :
    s.clipRect q = none ↔
      (q.l > q.r ∨ q.t > q.b) ∨ (q.r < s.mask.l ∨ q.l > s.mask.r ∨ q.b < s.mask.t ∨ q.t > s.mask.b) := by
  simp only [State.clipRect]
  split
  · next h => exact ⟨fun _ => .inl h, fun _ => rfl⟩
  · next h =>
    split
    · next h' => exact ⟨fun _ => .inr h', fun _ => rfl⟩
    · next h' => exact ⟨fun e => (nomatch e), fun e => (e.elim h h').elim⟩

theorem State.inMask_iff {s : State} {x y : Int} :
    s.inMask x y = true ↔ s.mask.l ≤ x ∧ x ≤ s.mask.r ∧ s.mask.t ≤ y ∧ y ≤ s.mask.b := Rect.has_iff

/-- SETMASK either leaves the state alone or writes a rectangle that lies on the screen and is not inverted. -/
theorem State.setmaskBody_cases (s : State) (l r t b : Int) :
    s.setmaskBody l r t b = s ∨
      (0 ≤ l ∧ l ≤ r ∧ r ≤ s.w - 1 ∧ 0 ≤ t ∧ t ≤ b ∧ b ≤ s.h - 1) ∧
        s.setmaskBody l r t b = s.setMask { l := l, r := r, t := t, b := b } := by
  unfold State.setmaskBody
  split
  · exact .inl rfl
  · split
    · exact .inl rfl
    · exact .inr ⟨by omega, rfl⟩

end Sys2Proof.Machine
end

