-- ==== Sys2Proof/Laws/Decode.lean ====
section
/-! SUPPORT. Laws/Decode.lean: the fields of a packed command word, and operand fields read back. -/

namespace Sys2Proof

theorem fieldOpc_packWord (o : Byte) (a b c d : Half) (e : BitVec 32) : fieldOpc (packWord o a b c d e) = o := by
  apply BitVec.eq_of_getLsbD_eq
  intro i hi
  simp only [fieldOpc, packWord, BitVec.getLsbD_extractLsb', BitVec.getLsbD_append]
  simp [hi, show ¬ 96 + i < 32 by omega, show ¬ 96 + i - 32 < 16 by omega,
    show ¬ 96 + i - 32 - 16 < 16 by omega, show ¬ 96 + i - 32 - 16 - 16 < 16 by omega,
    show ¬ 96 + i - 32 - 16 - 16 - 16 < 16 by omega, show 96 + i - 32 - 16 - 16 - 16 - 16 = i by omega]

theorem fieldA_packWord (o : Byte) (a b c d : Half) (e : BitVec 32) : fieldA (packWord o a b c d e) = a := by
  apply BitVec.eq_of_getLsbD_eq
  intro i hi
  simp only [fieldA, packWord, BitVec.getLsbD_extractLsb', BitVec.getLsbD_append]
  simp [hi, show ¬ 80 + i < 32 by omega, show ¬ 80 + i - 32 < 16 by omega,
    show ¬ 80 + i - 32 - 16 < 16 by omega, show ¬ 80 + i - 32 - 16 - 16 < 16 by omega,
    show 80 + i - 32 - 16 - 16 - 16 = i by omega]

theorem fieldB_packWord (o : Byte) (a b c d : Half) (e : BitVec 32) : fieldB (packWord o a b c d e) = b := by
  apply BitVec.eq_of_getLsbD_eq
  intro i hi
  simp only [fieldB, packWord, BitVec.getLsbD_extractLsb', BitVec.getLsbD_append]
  simp [hi, show ¬ 64 + i < 32 by omega, show ¬ 64 + i - 32 < 16 by omega,
    show ¬ 64 + i - 32 - 16 < 16 by omega,
    show 64 + i - 32 - 16 - 16 = i by omega]

theorem fieldC_packWord (o : Byte) (a b c d : Half) (e : BitVec 32) : fieldC (packWord o a b c d e) = c := by
  apply BitVec.eq_of_getLsbD_eq
  intro i hi
  simp only [fieldC, packWord, BitVec.getLsbD_extractLsb', BitVec.getLsbD_append]
  simp [hi, show ¬ 48 + i < 32 by omega, show ¬ 48 + i - 32 < 16 by omega,
    show 48 + i - 32 - 16 = i by omega]

theorem fieldD_packWord (o : Byte) (a b c d : Half) (e : BitVec 32) : fieldD (packWord o a b c d e) = d := by
  apply BitVec.eq_of_getLsbD_eq
  intro i hi
  simp only [fieldD, packWord, BitVec.getLsbD_extractLsb', BitVec.getLsbD_append]
  simp [hi, show ¬ 32 + i < 32 by omega]

theorem fieldE_packWord (o : Byte) (a b c d : Half) (e : BitVec 32) : fieldE (packWord o a b c d e) = e := by
  apply BitVec.eq_of_getLsbD_eq
  intro i hi
  simp only [fieldE, packWord, BitVec.getLsbD_extractLsb', BitVec.getLsbD_append]
  simp [hi]

theorem lowByte_setWidth (b : Byte) : lowByte (b.setWidth 16) = b := by
  apply BitVec.eq_of_getLsbD_eq
  intro i hi
  simp [lowByte, hi]
  omega

theorem colourOf_setWidth (c : Colour) : colourOf (c.setWidth 32) = c := by
  apply BitVec.eq_of_getLsbD_eq
  intro i hi
  simp [colourOf, hi]
  omega

/-- An `s16` operand in range is read back from its field. -/
theorem toInt_s16Field {x : Int} (h : isS16 x = true) : (s16Field x).toInt = x := by
  simp only [isS16, Bool.and_eq_true, decide_eq_true_eq] at h
  rw [s16Field, BitVec.toInt_ofInt, Int.bmod_def]
  omega

/-- A `u16` operand in range is read back from its field. -/
theorem toNat_u16Field {n : Nat} (h : isU16 n = true) : (u16Field n).toNat = n := by
  simp only [isU16, decide_eq_true_eq] at h
  simp [u16Field, Nat.mod_eq_of_lt h]

/-- What a field reads as is in the range of `s16`. -/
theorem isS16_toInt (f : Half) : isS16 f.toInt = true := by
  have h1 := BitVec.le_toInt f
  have h2 := BitVec.toInt_lt (x := f)
  simp only [isS16, Bool.and_eq_true, decide_eq_true_eq]
  omega

/-- What a field reads as is in the range of `u16`. -/
theorem isU16_toNat (f : Half) : isU16 f.toNat = true := by
  simpa [isU16] using f.isLt

end Sys2Proof
end

