-- ==== Sys2Proof/Laws/Memory.lean ====
section
/-! SUPPORT. Laws/Memory.lean: a read after a write, and the canonical form kept by every memory operation. -/

namespace Sys2Proof.Machine

theorem Mem.read_nil {w : Nat} (a : Nat) : Mem.read ([] : Mem w) a = 0 := rfl

/-- Below the first address of a canonical space every location is unlisted. -/
theorem Mem.read_of_lt {w : Nat} {m : Mem w} {lo a : Nat} (h : Mem.wfFrom lo m = true) (ha : a < lo) :
    Mem.read m a = 0 := by
  induction m generalizing lo with
  | nil => rfl
  | cons p rest ih =>
    obtain ⟨k, v⟩ := p
    simp only [Mem.wfFrom, Bool.and_eq_true, decide_eq_true_eq] at h
    rw [Mem.read, if_neg (by omega)]
    exact ih h.2 (by omega)

theorem Mem.wfFrom_mono {w : Nat} {m : Mem w} {lo lo' : Nat} (h : Mem.wfFrom lo m = true) (hl : lo' ≤ lo) :
    Mem.wfFrom lo' m = true := by
  cases m with
  | nil => rfl
  | cons p rest =>
    simp only [Mem.wfFrom, Bool.and_eq_true, decide_eq_true_eq] at h ⊢
    exact ⟨⟨⟨by omega, h.1.1.2⟩, h.1.2⟩, h.2⟩

/-- A read after a write: the value written at its place, the old value at every other place. -/
theorem Mem.read_write {w : Nat} {m : Mem w} {lo : Nat} (h : Mem.wfFrom lo m = true) (a b : Nat) (v : BitVec w) :
    Mem.read (Mem.write m a v) b = if b = a then v else Mem.read m b := by
  induction m generalizing lo with
  | nil =>
    by_cases hv : v = 0
    · simp [Mem.write, Mem.read, hv]
    · rw [Mem.write, if_neg hv, Mem.read, Mem.read]
      by_cases hb : a = b
      · simp [hb]
      · rw [if_neg hb, if_neg (Ne.symm hb), Mem.read]
  | cons p rest ih =>
    obtain ⟨k, u⟩ := p
    simp only [Mem.wfFrom, Bool.and_eq_true, decide_eq_true_eq] at h
    have hlow := fun x (hx : x < k + 1) => Mem.read_of_lt h.2 hx
    rw [Mem.write]
    split
    · next hak =>
      split
      · next hv =>
        by_cases hb : b = a
        · subst hb; simp [Mem.read, hv, hlow b (by omega), show k ≠ b by omega]
        · simp [hb]
      · by_cases hb : b = a
        · subst hb; simp [Mem.read]
        · simp [Mem.read, hb, Ne.symm hb]
    · split
      · next _ hak =>
        subst hak
        split
        · next hv =>
          by_cases hb : b = a
          · subst hb; simp [hlow b (by omega), hv]
          · simp [Mem.read, hb, Ne.symm hb]
        · by_cases hb : b = a
          · subst hb; simp [Mem.read]
          · simp [Mem.read, hb, Ne.symm hb]
      · next _ hne =>
        rw [Mem.read, Mem.read, ih h.2]
        by_cases hkb : k = b
        · subst hkb; simp [Ne.symm hne]
        · simp [hkb]

/-- A write below 2^32 keeps the canonical form. -/
theorem Mem.wfFrom_write {w : Nat} {m : Mem w} {lo : Nat} (h : Mem.wfFrom lo m = true) {a : Nat} (v : BitVec w)
    (hlo : lo ≤ a) (ha : a < 2 ^ 32) : Mem.wfFrom lo (Mem.write m a v) = true := by
  induction m generalizing lo with
  | nil =>
    by_cases hv : v = 0
    · simp [Mem.write, hv, Mem.wfFrom]
    · simp only [Mem.write, hv, if_false, Mem.wfFrom, Bool.and_eq_true, decide_eq_true_eq]
      exact ⟨⟨⟨hlo, ha⟩, hv⟩, trivial⟩
  | cons p rest ih =>
    obtain ⟨k, u⟩ := p
    have h' := h
    simp only [Mem.wfFrom, Bool.and_eq_true, decide_eq_true_eq] at h'
    rw [Mem.write]
    split
    · split
      · exact h
      · next hv =>
        simp only [Mem.wfFrom, Bool.and_eq_true, decide_eq_true_eq]
        exact ⟨⟨⟨hlo, ha⟩, hv⟩, ⟨⟨by omega, h'.1.1.2⟩, h'.1.2⟩, h'.2⟩
    · split
      · split
        · exact Mem.wfFrom_mono h'.2 (by omega)
        · next hv =>
          simp only [Mem.wfFrom, Bool.and_eq_true, decide_eq_true_eq]
          exact ⟨⟨⟨hlo, ha⟩, hv⟩, by simpa [show a = k by omega] using h'.2⟩
      · simp only [Mem.wfFrom, Bool.and_eq_true, decide_eq_true_eq]
        exact ⟨h'.1, ih h'.2 (by omega)⟩

theorem Mem.wf_write {w : Nat} {m : Mem w} (h : Mem.wf m = true) {a : Nat} (v : BitVec w) (ha : a < 2 ^ 32) :
    Mem.wf (Mem.write m a v) = true := Mem.wfFrom_write h v (Nat.zero_le a) ha

theorem Mem.wf_reset : Mem.wf State.reset.font = true ∧ Mem.wf State.reset.src = true := ⟨rfl, rfl⟩

/-- Two canonical spaces that read the same everywhere are the same list. -/
theorem Mem.ext_of_wfFrom {w : Nat} {m n : Mem w} {lo : Nat} (hm : Mem.wfFrom lo m = true) (hn : Mem.wfFrom lo n = true)
    (h : ∀ a, Mem.read m a = Mem.read n a) : m = n := by
  induction m generalizing n lo with
  | nil =>
    cases n with
    | nil => rfl
    | cons p rest =>
      simp only [Mem.wfFrom, Bool.and_eq_true, decide_eq_true_eq] at hn
      exact absurd (by simpa [Mem.read] using (h p.1).symm) hn.1.2
  | cons p rest ih =>
    obtain ⟨k, u⟩ := p
    simp only [Mem.wfFrom, Bool.and_eq_true, decide_eq_true_eq] at hm
    cases n with
    | nil => exact absurd (by simpa [Mem.read] using h k) hm.1.2
    | cons q tail =>
      obtain ⟨j, v⟩ := q
      simp only [Mem.wfFrom, Bool.and_eq_true, decide_eq_true_eq] at hn
      have hkj : k = j := by
        rcases lt_trichotomy k j with hlt | heq | hgt
        · have := h k
          rw [Mem.read, if_pos rfl, Mem.read, if_neg (by omega), Mem.read_of_lt hn.2 (by omega)] at this
          exact absurd this hm.1.2
        · exact heq
        · have := h j
          rw [Mem.read, if_neg (by omega), Mem.read_of_lt hm.2 (by omega), Mem.read, if_pos rfl] at this
          exact absurd this.symm hn.1.2
      subst hkj
      have huv : u = v := by simpa [Mem.read] using h k
      have hrest : rest = tail := by
        refine ih hm.2 hn.2 fun a => ?_
        have := h a
        by_cases hak : k = a
        · subst hak; rw [Mem.read_of_lt hm.2 (by omega), Mem.read_of_lt hn.2 (by omega)]
        · simpa [Mem.read, hak] using this
      rw [huv, hrest]

end Sys2Proof.Machine
end

