-- ==== Sys2Proof/Laws/State.lean ====
section
/-! SUPPORT. Laws/State.lean: for each update of State, what every field holds after it. -/

namespace Sys2Proof.Machine

@[simp] theorem State.drop_eq (s : State) : s.drop = s := rfl

/-! `State.emit`. -/

@[simp] theorem State.emit_cfg (s : State) (es : List BusEvent) : (s.emit es).cfg = s.cfg := rfl
@[simp] theorem State.emit_font (s : State) (es : List BusEvent) : (s.emit es).font = s.font := rfl
@[simp] theorem State.emit_src (s : State) (es : List BusEvent) : (s.emit es).src = s.src := rfl
@[simp] theorem State.emit_orient (s : State) (es : List BusEvent) : (s.emit es).orient = s.orient := rfl
@[simp] theorem State.emit_maskL (s : State) (es : List BusEvent) : (s.emit es).maskL = s.maskL := rfl
@[simp] theorem State.emit_maskR (s : State) (es : List BusEvent) : (s.emit es).maskR = s.maskR := rfl
@[simp] theorem State.emit_maskT (s : State) (es : List BusEvent) : (s.emit es).maskT = s.maskT := rfl
@[simp] theorem State.emit_maskB (s : State) (es : List BusEvent) : (s.emit es).maskB = s.maskB := rfl
@[simp] theorem State.emit_penX (s : State) (es : List BusEvent) : (s.emit es).penX = s.penX := rfl
@[simp] theorem State.emit_penY (s : State) (es : List BusEvent) : (s.emit es).penY = s.penY := rfl
@[simp] theorem State.emit_curX (s : State) (es : List BusEvent) : (s.emit es).curX = s.curX := rfl
@[simp] theorem State.emit_curY (s : State) (es : List BusEvent) : (s.emit es).curY = s.curY := rfl
@[simp] theorem State.emit_gcolor (s : State) (es : List BusEvent) : (s.emit es).gcolor = s.gcolor := rfl
@[simp] theorem State.emit_fontValid (s : State) (es : List BusEvent) : (s.emit es).fontValid = s.fontValid := rfl
@[simp] theorem State.emit_fontBase (s : State) (es : List BusEvent) : (s.emit es).fontBase = s.fontBase := rfl
@[simp] theorem State.emit_fw (s : State) (es : List BusEvent) : (s.emit es).fw = s.fw := rfl
@[simp] theorem State.emit_fh (s : State) (es : List BusEvent) : (s.emit es).fh = s.fh := rfl
@[simp] theorem State.emit_lines (s : State) (es : List BusEvent) : (s.emit es).lines = s.lines := rfl
@[simp] theorem State.emit_busy (s : State) (es : List BusEvent) : (s.emit es).busy = s.busy := rfl
@[simp] theorem State.emit_resp (s : State) (es : List BusEvent) : (s.emit es).resp = s.resp := rfl
@[simp] theorem State.emit_respValid (s : State) (es : List BusEvent) : (s.emit es).respValid = s.respValid := rfl
@[simp] theorem State.emit_respPending (s : State) (es : List BusEvent) : (s.emit es).respPending = s.respPending := rfl
@[simp] theorem State.emit_latch (s : State) (es : List BusEvent) : (s.emit es).latch = s.latch := rfl
@[simp] theorem State.emit_queue (s : State) (es : List BusEvent) : (s.emit es).queue = s.queue ++ es := rfl
@[simp] theorem State.emit_emitted (s : State) (es : List BusEvent) : (s.emit es).emitted = s.emitted := rfl
@[simp] theorem State.emit_responded (s : State) (es : List BusEvent) : (s.emit es).responded = s.responded := rfl
@[simp] theorem State.emit_host (s : State) (es : List BusEvent) : (s.emit es).host = s.host := rfl
@[simp] theorem State.emit_draws (s : State) (es : List BusEvent) : (s.emit es).draws = s.draws := rfl

/-! `State.respond`. -/

@[simp] theorem State.respond_cfg (s : State) (v : Half) : (s.respond v).cfg = s.cfg := rfl
@[simp] theorem State.respond_font (s : State) (v : Half) : (s.respond v).font = s.font := rfl
@[simp] theorem State.respond_src (s : State) (v : Half) : (s.respond v).src = s.src := rfl
@[simp] theorem State.respond_orient (s : State) (v : Half) : (s.respond v).orient = s.orient := rfl
@[simp] theorem State.respond_maskL (s : State) (v : Half) : (s.respond v).maskL = s.maskL := rfl
@[simp] theorem State.respond_maskR (s : State) (v : Half) : (s.respond v).maskR = s.maskR := rfl
@[simp] theorem State.respond_maskT (s : State) (v : Half) : (s.respond v).maskT = s.maskT := rfl
@[simp] theorem State.respond_maskB (s : State) (v : Half) : (s.respond v).maskB = s.maskB := rfl
@[simp] theorem State.respond_penX (s : State) (v : Half) : (s.respond v).penX = s.penX := rfl
@[simp] theorem State.respond_penY (s : State) (v : Half) : (s.respond v).penY = s.penY := rfl
@[simp] theorem State.respond_curX (s : State) (v : Half) : (s.respond v).curX = s.curX := rfl
@[simp] theorem State.respond_curY (s : State) (v : Half) : (s.respond v).curY = s.curY := rfl
@[simp] theorem State.respond_gcolor (s : State) (v : Half) : (s.respond v).gcolor = s.gcolor := rfl
@[simp] theorem State.respond_fontValid (s : State) (v : Half) : (s.respond v).fontValid = s.fontValid := rfl
@[simp] theorem State.respond_fontBase (s : State) (v : Half) : (s.respond v).fontBase = s.fontBase := rfl
@[simp] theorem State.respond_fw (s : State) (v : Half) : (s.respond v).fw = s.fw := rfl
@[simp] theorem State.respond_fh (s : State) (v : Half) : (s.respond v).fh = s.fh := rfl
@[simp] theorem State.respond_lines (s : State) (v : Half) : (s.respond v).lines = s.lines := rfl
@[simp] theorem State.respond_busy (s : State) (v : Half) : (s.respond v).busy = s.busy := rfl
@[simp] theorem State.respond_resp (s : State) (v : Half) : (s.respond v).resp = v := rfl
@[simp] theorem State.respond_respValid (s : State) (v : Half) : (s.respond v).respValid = s.respValid := rfl
@[simp] theorem State.respond_respPending (s : State) (v : Half) : (s.respond v).respPending = true := rfl
@[simp] theorem State.respond_latch (s : State) (v : Half) : (s.respond v).latch = s.latch := rfl
@[simp] theorem State.respond_queue (s : State) (v : Half) : (s.respond v).queue = s.queue := rfl
@[simp] theorem State.respond_emitted (s : State) (v : Half) : (s.respond v).emitted = s.emitted := rfl
@[simp] theorem State.respond_responded (s : State) (v : Half) : (s.respond v).responded = v :: s.responded := rfl
@[simp] theorem State.respond_host (s : State) (v : Half) : (s.respond v).host = s.host := rfl
@[simp] theorem State.respond_draws (s : State) (v : Half) : (s.respond v).draws = s.draws := rfl

/-! `State.setMask`. -/

@[simp] theorem State.setMask_cfg (s : State) (q : Rect) : (s.setMask q).cfg = s.cfg := rfl
@[simp] theorem State.setMask_font (s : State) (q : Rect) : (s.setMask q).font = s.font := rfl
@[simp] theorem State.setMask_src (s : State) (q : Rect) : (s.setMask q).src = s.src := rfl
@[simp] theorem State.setMask_orient (s : State) (q : Rect) : (s.setMask q).orient = s.orient := rfl
@[simp] theorem State.setMask_maskL (s : State) (q : Rect) : (s.setMask q).maskL = wrap16 q.l := rfl
@[simp] theorem State.setMask_maskR (s : State) (q : Rect) : (s.setMask q).maskR = wrap16 q.r := rfl
@[simp] theorem State.setMask_maskT (s : State) (q : Rect) : (s.setMask q).maskT = wrap16 q.t := rfl
@[simp] theorem State.setMask_maskB (s : State) (q : Rect) : (s.setMask q).maskB = wrap16 q.b := rfl
@[simp] theorem State.setMask_penX (s : State) (q : Rect) : (s.setMask q).penX = s.penX := rfl
@[simp] theorem State.setMask_penY (s : State) (q : Rect) : (s.setMask q).penY = s.penY := rfl
@[simp] theorem State.setMask_curX (s : State) (q : Rect) : (s.setMask q).curX = s.curX := rfl
@[simp] theorem State.setMask_curY (s : State) (q : Rect) : (s.setMask q).curY = s.curY := rfl
@[simp] theorem State.setMask_gcolor (s : State) (q : Rect) : (s.setMask q).gcolor = s.gcolor := rfl
@[simp] theorem State.setMask_fontValid (s : State) (q : Rect) : (s.setMask q).fontValid = s.fontValid := rfl
@[simp] theorem State.setMask_fontBase (s : State) (q : Rect) : (s.setMask q).fontBase = s.fontBase := rfl
@[simp] theorem State.setMask_fw (s : State) (q : Rect) : (s.setMask q).fw = s.fw := rfl
@[simp] theorem State.setMask_fh (s : State) (q : Rect) : (s.setMask q).fh = s.fh := rfl
@[simp] theorem State.setMask_lines (s : State) (q : Rect) : (s.setMask q).lines = s.lines := rfl
@[simp] theorem State.setMask_busy (s : State) (q : Rect) : (s.setMask q).busy = s.busy := rfl
@[simp] theorem State.setMask_resp (s : State) (q : Rect) : (s.setMask q).resp = s.resp := rfl
@[simp] theorem State.setMask_respValid (s : State) (q : Rect) : (s.setMask q).respValid = s.respValid := rfl
@[simp] theorem State.setMask_respPending (s : State) (q : Rect) : (s.setMask q).respPending = s.respPending := rfl
@[simp] theorem State.setMask_latch (s : State) (q : Rect) : (s.setMask q).latch = s.latch := rfl
@[simp] theorem State.setMask_queue (s : State) (q : Rect) : (s.setMask q).queue = s.queue := rfl
@[simp] theorem State.setMask_emitted (s : State) (q : Rect) : (s.setMask q).emitted = s.emitted := rfl
@[simp] theorem State.setMask_responded (s : State) (q : Rect) : (s.setMask q).responded = s.responded := rfl
@[simp] theorem State.setMask_host (s : State) (q : Rect) : (s.setMask q).host = s.host := rfl
@[simp] theorem State.setMask_draws (s : State) (q : Rect) : (s.setMask q).draws = s.draws := rfl

/-! `State.setPen`. -/

@[simp] theorem State.setPen_cfg (s : State) (x y : Int) : (s.setPen x y).cfg = s.cfg := rfl
@[simp] theorem State.setPen_font (s : State) (x y : Int) : (s.setPen x y).font = s.font := rfl
@[simp] theorem State.setPen_src (s : State) (x y : Int) : (s.setPen x y).src = s.src := rfl
@[simp] theorem State.setPen_orient (s : State) (x y : Int) : (s.setPen x y).orient = s.orient := rfl
@[simp] theorem State.setPen_maskL (s : State) (x y : Int) : (s.setPen x y).maskL = s.maskL := rfl
@[simp] theorem State.setPen_maskR (s : State) (x y : Int) : (s.setPen x y).maskR = s.maskR := rfl
@[simp] theorem State.setPen_maskT (s : State) (x y : Int) : (s.setPen x y).maskT = s.maskT := rfl
@[simp] theorem State.setPen_maskB (s : State) (x y : Int) : (s.setPen x y).maskB = s.maskB := rfl
@[simp] theorem State.setPen_penX (s : State) (x y : Int) : (s.setPen x y).penX = wrap16 x := rfl
@[simp] theorem State.setPen_penY (s : State) (x y : Int) : (s.setPen x y).penY = wrap16 y := rfl
@[simp] theorem State.setPen_curX (s : State) (x y : Int) : (s.setPen x y).curX = s.curX := rfl
@[simp] theorem State.setPen_curY (s : State) (x y : Int) : (s.setPen x y).curY = s.curY := rfl
@[simp] theorem State.setPen_gcolor (s : State) (x y : Int) : (s.setPen x y).gcolor = s.gcolor := rfl
@[simp] theorem State.setPen_fontValid (s : State) (x y : Int) : (s.setPen x y).fontValid = s.fontValid := rfl
@[simp] theorem State.setPen_fontBase (s : State) (x y : Int) : (s.setPen x y).fontBase = s.fontBase := rfl
@[simp] theorem State.setPen_fw (s : State) (x y : Int) : (s.setPen x y).fw = s.fw := rfl
@[simp] theorem State.setPen_fh (s : State) (x y : Int) : (s.setPen x y).fh = s.fh := rfl
@[simp] theorem State.setPen_lines (s : State) (x y : Int) : (s.setPen x y).lines = s.lines := rfl
@[simp] theorem State.setPen_busy (s : State) (x y : Int) : (s.setPen x y).busy = s.busy := rfl
@[simp] theorem State.setPen_resp (s : State) (x y : Int) : (s.setPen x y).resp = s.resp := rfl
@[simp] theorem State.setPen_respValid (s : State) (x y : Int) : (s.setPen x y).respValid = s.respValid := rfl
@[simp] theorem State.setPen_respPending (s : State) (x y : Int) : (s.setPen x y).respPending = s.respPending := rfl
@[simp] theorem State.setPen_latch (s : State) (x y : Int) : (s.setPen x y).latch = s.latch := rfl
@[simp] theorem State.setPen_queue (s : State) (x y : Int) : (s.setPen x y).queue = s.queue := rfl
@[simp] theorem State.setPen_emitted (s : State) (x y : Int) : (s.setPen x y).emitted = s.emitted := rfl
@[simp] theorem State.setPen_responded (s : State) (x y : Int) : (s.setPen x y).responded = s.responded := rfl
@[simp] theorem State.setPen_host (s : State) (x y : Int) : (s.setPen x y).host = s.host := rfl
@[simp] theorem State.setPen_draws (s : State) (x y : Int) : (s.setPen x y).draws = s.draws := rfl

/-! `State.setCur`. -/

@[simp] theorem State.setCur_cfg (s : State) (x y : Int) : (s.setCur x y).cfg = s.cfg := rfl
@[simp] theorem State.setCur_font (s : State) (x y : Int) : (s.setCur x y).font = s.font := rfl
@[simp] theorem State.setCur_src (s : State) (x y : Int) : (s.setCur x y).src = s.src := rfl
@[simp] theorem State.setCur_orient (s : State) (x y : Int) : (s.setCur x y).orient = s.orient := rfl
@[simp] theorem State.setCur_maskL (s : State) (x y : Int) : (s.setCur x y).maskL = s.maskL := rfl
@[simp] theorem State.setCur_maskR (s : State) (x y : Int) : (s.setCur x y).maskR = s.maskR := rfl
@[simp] theorem State.setCur_maskT (s : State) (x y : Int) : (s.setCur x y).maskT = s.maskT := rfl
@[simp] theorem State.setCur_maskB (s : State) (x y : Int) : (s.setCur x y).maskB = s.maskB := rfl
@[simp] theorem State.setCur_penX (s : State) (x y : Int) : (s.setCur x y).penX = s.penX := rfl
@[simp] theorem State.setCur_penY (s : State) (x y : Int) : (s.setCur x y).penY = s.penY := rfl
@[simp] theorem State.setCur_curX (s : State) (x y : Int) : (s.setCur x y).curX = wrap16 x := rfl
@[simp] theorem State.setCur_curY (s : State) (x y : Int) : (s.setCur x y).curY = wrap16 y := rfl
@[simp] theorem State.setCur_gcolor (s : State) (x y : Int) : (s.setCur x y).gcolor = s.gcolor := rfl
@[simp] theorem State.setCur_fontValid (s : State) (x y : Int) : (s.setCur x y).fontValid = s.fontValid := rfl
@[simp] theorem State.setCur_fontBase (s : State) (x y : Int) : (s.setCur x y).fontBase = s.fontBase := rfl
@[simp] theorem State.setCur_fw (s : State) (x y : Int) : (s.setCur x y).fw = s.fw := rfl
@[simp] theorem State.setCur_fh (s : State) (x y : Int) : (s.setCur x y).fh = s.fh := rfl
@[simp] theorem State.setCur_lines (s : State) (x y : Int) : (s.setCur x y).lines = s.lines := rfl
@[simp] theorem State.setCur_busy (s : State) (x y : Int) : (s.setCur x y).busy = s.busy := rfl
@[simp] theorem State.setCur_resp (s : State) (x y : Int) : (s.setCur x y).resp = s.resp := rfl
@[simp] theorem State.setCur_respValid (s : State) (x y : Int) : (s.setCur x y).respValid = s.respValid := rfl
@[simp] theorem State.setCur_respPending (s : State) (x y : Int) : (s.setCur x y).respPending = s.respPending := rfl
@[simp] theorem State.setCur_latch (s : State) (x y : Int) : (s.setCur x y).latch = s.latch := rfl
@[simp] theorem State.setCur_queue (s : State) (x y : Int) : (s.setCur x y).queue = s.queue := rfl
@[simp] theorem State.setCur_emitted (s : State) (x y : Int) : (s.setCur x y).emitted = s.emitted := rfl
@[simp] theorem State.setCur_responded (s : State) (x y : Int) : (s.setCur x y).responded = s.responded := rfl
@[simp] theorem State.setCur_host (s : State) (x y : Int) : (s.setCur x y).host = s.host := rfl
@[simp] theorem State.setCur_draws (s : State) (x y : Int) : (s.setCur x y).draws = s.draws := rfl

/-! `State.home`. -/

@[simp] theorem State.home_cfg (s : State) : s.home.cfg = s.cfg := rfl
@[simp] theorem State.home_font (s : State) : s.home.font = s.font := rfl
@[simp] theorem State.home_src (s : State) : s.home.src = s.src := rfl
@[simp] theorem State.home_orient (s : State) : s.home.orient = s.orient := rfl
@[simp] theorem State.home_maskL (s : State) : s.home.maskL = s.maskL := rfl
@[simp] theorem State.home_maskR (s : State) : s.home.maskR = s.maskR := rfl
@[simp] theorem State.home_maskT (s : State) : s.home.maskT = s.maskT := rfl
@[simp] theorem State.home_maskB (s : State) : s.home.maskB = s.maskB := rfl
@[simp] theorem State.home_penX (s : State) : s.home.penX = 0 := rfl
@[simp] theorem State.home_penY (s : State) : s.home.penY = 0 := rfl
@[simp] theorem State.home_curX (s : State) : s.home.curX = 0 := rfl
@[simp] theorem State.home_curY (s : State) : s.home.curY = 0 := rfl
@[simp] theorem State.home_gcolor (s : State) : s.home.gcolor = s.gcolor := rfl
@[simp] theorem State.home_fontValid (s : State) : s.home.fontValid = s.fontValid := rfl
@[simp] theorem State.home_fontBase (s : State) : s.home.fontBase = s.fontBase := rfl
@[simp] theorem State.home_fw (s : State) : s.home.fw = s.fw := rfl
@[simp] theorem State.home_fh (s : State) : s.home.fh = s.fh := rfl
@[simp] theorem State.home_lines (s : State) : s.home.lines = s.lines := rfl
@[simp] theorem State.home_busy (s : State) : s.home.busy = s.busy := rfl
@[simp] theorem State.home_resp (s : State) : s.home.resp = s.resp := rfl
@[simp] theorem State.home_respValid (s : State) : s.home.respValid = s.respValid := rfl
@[simp] theorem State.home_respPending (s : State) : s.home.respPending = s.respPending := rfl
@[simp] theorem State.home_latch (s : State) : s.home.latch = s.latch := rfl
@[simp] theorem State.home_queue (s : State) : s.home.queue = s.queue := rfl
@[simp] theorem State.home_emitted (s : State) : s.home.emitted = s.emitted := rfl
@[simp] theorem State.home_responded (s : State) : s.home.responded = s.responded := rfl
@[simp] theorem State.home_host (s : State) : s.home.host = s.host := rfl
@[simp] theorem State.home_draws (s : State) : s.home.draws = s.draws := rfl

/-! `State.accept`. -/

@[simp] theorem State.accept_cfg (s : State) (w : CmdWord) : (s.accept w).cfg = s.cfg := rfl
@[simp] theorem State.accept_font (s : State) (w : CmdWord) : (s.accept w).font = s.font := rfl
@[simp] theorem State.accept_src (s : State) (w : CmdWord) : (s.accept w).src = s.src := rfl
@[simp] theorem State.accept_orient (s : State) (w : CmdWord) : (s.accept w).orient = s.orient := rfl
@[simp] theorem State.accept_maskL (s : State) (w : CmdWord) : (s.accept w).maskL = s.maskL := rfl
@[simp] theorem State.accept_maskR (s : State) (w : CmdWord) : (s.accept w).maskR = s.maskR := rfl
@[simp] theorem State.accept_maskT (s : State) (w : CmdWord) : (s.accept w).maskT = s.maskT := rfl
@[simp] theorem State.accept_maskB (s : State) (w : CmdWord) : (s.accept w).maskB = s.maskB := rfl
@[simp] theorem State.accept_penX (s : State) (w : CmdWord) : (s.accept w).penX = s.penX := rfl
@[simp] theorem State.accept_penY (s : State) (w : CmdWord) : (s.accept w).penY = s.penY := rfl
@[simp] theorem State.accept_curX (s : State) (w : CmdWord) : (s.accept w).curX = s.curX := rfl
@[simp] theorem State.accept_curY (s : State) (w : CmdWord) : (s.accept w).curY = s.curY := rfl
@[simp] theorem State.accept_gcolor (s : State) (w : CmdWord) : (s.accept w).gcolor = s.gcolor := rfl
@[simp] theorem State.accept_fontValid (s : State) (w : CmdWord) : (s.accept w).fontValid = s.fontValid := rfl
@[simp] theorem State.accept_fontBase (s : State) (w : CmdWord) : (s.accept w).fontBase = s.fontBase := rfl
@[simp] theorem State.accept_fw (s : State) (w : CmdWord) : (s.accept w).fw = s.fw := rfl
@[simp] theorem State.accept_fh (s : State) (w : CmdWord) : (s.accept w).fh = s.fh := rfl
@[simp] theorem State.accept_lines (s : State) (w : CmdWord) : (s.accept w).lines = s.lines := rfl
@[simp] theorem State.accept_busy (s : State) (w : CmdWord) : (s.accept w).busy = true := rfl
@[simp] theorem State.accept_resp (s : State) (w : CmdWord) : (s.accept w).resp = s.resp := rfl
@[simp] theorem State.accept_respValid (s : State) (w : CmdWord) : (s.accept w).respValid = false := rfl
@[simp] theorem State.accept_respPending (s : State) (w : CmdWord) : (s.accept w).respPending = false := rfl
@[simp] theorem State.accept_latch (s : State) (w : CmdWord) : (s.accept w).latch = w := rfl
@[simp] theorem State.accept_queue (s : State) (w : CmdWord) : (s.accept w).queue = s.queue := rfl
@[simp] theorem State.accept_emitted (s : State) (w : CmdWord) : (s.accept w).emitted = s.emitted := rfl
@[simp] theorem State.accept_responded (s : State) (w : CmdWord) : (s.accept w).responded = s.responded := rfl
@[simp] theorem State.accept_host (s : State) (w : CmdWord) : (s.accept w).host = s.host.tail := rfl
@[simp] theorem State.accept_draws (s : State) (w : CmdWord) : (s.accept w).draws = s.draws := rfl

/-! `State.complete`. -/

@[simp] theorem State.complete_cfg (s : State) : s.complete.cfg = s.cfg := rfl
@[simp] theorem State.complete_font (s : State) : s.complete.font = s.font := rfl
@[simp] theorem State.complete_src (s : State) : s.complete.src = s.src := rfl
@[simp] theorem State.complete_orient (s : State) : s.complete.orient = s.orient := rfl
@[simp] theorem State.complete_maskL (s : State) : s.complete.maskL = s.maskL := rfl
@[simp] theorem State.complete_maskR (s : State) : s.complete.maskR = s.maskR := rfl
@[simp] theorem State.complete_maskT (s : State) : s.complete.maskT = s.maskT := rfl
@[simp] theorem State.complete_maskB (s : State) : s.complete.maskB = s.maskB := rfl
@[simp] theorem State.complete_penX (s : State) : s.complete.penX = s.penX := rfl
@[simp] theorem State.complete_penY (s : State) : s.complete.penY = s.penY := rfl
@[simp] theorem State.complete_curX (s : State) : s.complete.curX = s.curX := rfl
@[simp] theorem State.complete_curY (s : State) : s.complete.curY = s.curY := rfl
@[simp] theorem State.complete_gcolor (s : State) : s.complete.gcolor = s.gcolor := rfl
@[simp] theorem State.complete_fontValid (s : State) : s.complete.fontValid = s.fontValid := rfl
@[simp] theorem State.complete_fontBase (s : State) : s.complete.fontBase = s.fontBase := rfl
@[simp] theorem State.complete_fw (s : State) : s.complete.fw = s.fw := rfl
@[simp] theorem State.complete_fh (s : State) : s.complete.fh = s.fh := rfl
@[simp] theorem State.complete_lines (s : State) : s.complete.lines = s.lines := rfl
@[simp] theorem State.complete_busy (s : State) : s.complete.busy = false := rfl
@[simp] theorem State.complete_resp (s : State) : s.complete.resp = s.resp := rfl
@[simp] theorem State.complete_respValid (s : State) : s.complete.respValid = s.respPending := rfl
@[simp] theorem State.complete_respPending (s : State) : s.complete.respPending = false := rfl
@[simp] theorem State.complete_latch (s : State) : s.complete.latch = s.latch := rfl
@[simp] theorem State.complete_queue (s : State) : s.complete.queue = s.queue := rfl
@[simp] theorem State.complete_emitted (s : State) : s.complete.emitted = s.emitted := rfl
@[simp] theorem State.complete_responded (s : State) : s.complete.responded = s.responded := rfl
@[simp] theorem State.complete_host (s : State) : s.complete.host = s.host := rfl
@[simp] theorem State.complete_draws (s : State) : s.complete.draws = s.draws := rfl

/-! `State.emitNow`. -/

@[simp] theorem State.emitNow_cfg (s : State) (e : BusEvent) : (s.emitNow e).cfg = s.cfg := rfl
@[simp] theorem State.emitNow_font (s : State) (e : BusEvent) : (s.emitNow e).font = s.font := rfl
@[simp] theorem State.emitNow_src (s : State) (e : BusEvent) : (s.emitNow e).src = s.src := rfl
@[simp] theorem State.emitNow_orient (s : State) (e : BusEvent) : (s.emitNow e).orient = s.orient := rfl
@[simp] theorem State.emitNow_maskL (s : State) (e : BusEvent) : (s.emitNow e).maskL = s.maskL := rfl
@[simp] theorem State.emitNow_maskR (s : State) (e : BusEvent) : (s.emitNow e).maskR = s.maskR := rfl
@[simp] theorem State.emitNow_maskT (s : State) (e : BusEvent) : (s.emitNow e).maskT = s.maskT := rfl
@[simp] theorem State.emitNow_maskB (s : State) (e : BusEvent) : (s.emitNow e).maskB = s.maskB := rfl
@[simp] theorem State.emitNow_penX (s : State) (e : BusEvent) : (s.emitNow e).penX = s.penX := rfl
@[simp] theorem State.emitNow_penY (s : State) (e : BusEvent) : (s.emitNow e).penY = s.penY := rfl
@[simp] theorem State.emitNow_curX (s : State) (e : BusEvent) : (s.emitNow e).curX = s.curX := rfl
@[simp] theorem State.emitNow_curY (s : State) (e : BusEvent) : (s.emitNow e).curY = s.curY := rfl
@[simp] theorem State.emitNow_gcolor (s : State) (e : BusEvent) : (s.emitNow e).gcolor = s.gcolor := rfl
@[simp] theorem State.emitNow_fontValid (s : State) (e : BusEvent) : (s.emitNow e).fontValid = s.fontValid := rfl
@[simp] theorem State.emitNow_fontBase (s : State) (e : BusEvent) : (s.emitNow e).fontBase = s.fontBase := rfl
@[simp] theorem State.emitNow_fw (s : State) (e : BusEvent) : (s.emitNow e).fw = s.fw := rfl
@[simp] theorem State.emitNow_fh (s : State) (e : BusEvent) : (s.emitNow e).fh = s.fh := rfl
@[simp] theorem State.emitNow_lines (s : State) (e : BusEvent) : (s.emitNow e).lines = s.lines.after e := rfl
@[simp] theorem State.emitNow_busy (s : State) (e : BusEvent) : (s.emitNow e).busy = s.busy := rfl
@[simp] theorem State.emitNow_resp (s : State) (e : BusEvent) : (s.emitNow e).resp = s.resp := rfl
@[simp] theorem State.emitNow_respValid (s : State) (e : BusEvent) : (s.emitNow e).respValid = s.respValid := rfl
@[simp] theorem State.emitNow_respPending (s : State) (e : BusEvent) : (s.emitNow e).respPending = s.respPending := rfl
@[simp] theorem State.emitNow_latch (s : State) (e : BusEvent) : (s.emitNow e).latch = s.latch := rfl
@[simp] theorem State.emitNow_queue (s : State) (e : BusEvent) : (s.emitNow e).queue = s.queue := rfl
@[simp] theorem State.emitNow_emitted (s : State) (e : BusEvent) : (s.emitNow e).emitted = e :: s.emitted := rfl
@[simp] theorem State.emitNow_responded (s : State) (e : BusEvent) : (s.emitNow e).responded = s.responded := rfl
@[simp] theorem State.emitNow_host (s : State) (e : BusEvent) : (s.emitNow e).host = s.host := rfl
@[simp] theorem State.emitNow_draws (s : State) (e : BusEvent) : (s.emitNow e).draws = s.draws := rfl

/-! `State.settled`. -/

@[simp] theorem State.settled_cfg (s : State) : s.settled.cfg = s.cfg := rfl
@[simp] theorem State.settled_font (s : State) : s.settled.font = s.font := rfl
@[simp] theorem State.settled_src (s : State) : s.settled.src = s.src := rfl
@[simp] theorem State.settled_orient (s : State) : s.settled.orient = s.orient := rfl
@[simp] theorem State.settled_maskL (s : State) : s.settled.maskL = s.maskL := rfl
@[simp] theorem State.settled_maskR (s : State) : s.settled.maskR = s.maskR := rfl
@[simp] theorem State.settled_maskT (s : State) : s.settled.maskT = s.maskT := rfl
@[simp] theorem State.settled_maskB (s : State) : s.settled.maskB = s.maskB := rfl
@[simp] theorem State.settled_penX (s : State) : s.settled.penX = s.penX := rfl
@[simp] theorem State.settled_penY (s : State) : s.settled.penY = s.penY := rfl
@[simp] theorem State.settled_curX (s : State) : s.settled.curX = s.curX := rfl
@[simp] theorem State.settled_curY (s : State) : s.settled.curY = s.curY := rfl
@[simp] theorem State.settled_gcolor (s : State) : s.settled.gcolor = s.gcolor := rfl
@[simp] theorem State.settled_fontValid (s : State) : s.settled.fontValid = s.fontValid := rfl
@[simp] theorem State.settled_fontBase (s : State) : s.settled.fontBase = s.fontBase := rfl
@[simp] theorem State.settled_fw (s : State) : s.settled.fw = s.fw := rfl
@[simp] theorem State.settled_fh (s : State) : s.settled.fh = s.fh := rfl
@[simp] theorem State.settled_lines (s : State) : s.settled.lines = s.lines.afterAll s.queue := rfl
@[simp] theorem State.settled_busy (s : State) : s.settled.busy = false := rfl
@[simp] theorem State.settled_resp (s : State) : s.settled.resp = s.resp := rfl
@[simp] theorem State.settled_respValid (s : State) : s.settled.respValid = s.respPending := rfl
@[simp] theorem State.settled_respPending (s : State) : s.settled.respPending = false := rfl
@[simp] theorem State.settled_latch (s : State) : s.settled.latch = s.latch := rfl
@[simp] theorem State.settled_queue (s : State) : s.settled.queue = [] := rfl
@[simp] theorem State.settled_emitted (s : State) : s.settled.emitted = s.queue.reverse ++ s.emitted := rfl
@[simp] theorem State.settled_responded (s : State) : s.settled.responded = s.responded := rfl
@[simp] theorem State.settled_host (s : State) : s.settled.host = s.host := rfl
@[simp] theorem State.settled_draws (s : State) : s.settled.draws = s.draws := rfl

/-! `State.quiet`. -/

@[simp] theorem State.quiet_cfg (s : State) : s.quiet.cfg = s.cfg := rfl
@[simp] theorem State.quiet_font (s : State) : s.quiet.font = s.font := rfl
@[simp] theorem State.quiet_src (s : State) : s.quiet.src = s.src := rfl
@[simp] theorem State.quiet_orient (s : State) : s.quiet.orient = s.orient := rfl
@[simp] theorem State.quiet_maskL (s : State) : s.quiet.maskL = s.maskL := rfl
@[simp] theorem State.quiet_maskR (s : State) : s.quiet.maskR = s.maskR := rfl
@[simp] theorem State.quiet_maskT (s : State) : s.quiet.maskT = s.maskT := rfl
@[simp] theorem State.quiet_maskB (s : State) : s.quiet.maskB = s.maskB := rfl
@[simp] theorem State.quiet_penX (s : State) : s.quiet.penX = s.penX := rfl
@[simp] theorem State.quiet_penY (s : State) : s.quiet.penY = s.penY := rfl
@[simp] theorem State.quiet_curX (s : State) : s.quiet.curX = s.curX := rfl
@[simp] theorem State.quiet_curY (s : State) : s.quiet.curY = s.curY := rfl
@[simp] theorem State.quiet_gcolor (s : State) : s.quiet.gcolor = s.gcolor := rfl
@[simp] theorem State.quiet_fontValid (s : State) : s.quiet.fontValid = s.fontValid := rfl
@[simp] theorem State.quiet_fontBase (s : State) : s.quiet.fontBase = s.fontBase := rfl
@[simp] theorem State.quiet_fw (s : State) : s.quiet.fw = s.fw := rfl
@[simp] theorem State.quiet_fh (s : State) : s.quiet.fh = s.fh := rfl
@[simp] theorem State.quiet_lines (s : State) : s.quiet.lines = s.lines := rfl
@[simp] theorem State.quiet_busy (s : State) : s.quiet.busy = s.busy := rfl
@[simp] theorem State.quiet_resp (s : State) : s.quiet.resp = s.resp := rfl
@[simp] theorem State.quiet_respValid (s : State) : s.quiet.respValid = false := rfl
@[simp] theorem State.quiet_respPending (s : State) : s.quiet.respPending = s.respPending := rfl
@[simp] theorem State.quiet_latch (s : State) : s.quiet.latch = s.latch := rfl
@[simp] theorem State.quiet_queue (s : State) : s.quiet.queue = s.queue := rfl
@[simp] theorem State.quiet_emitted (s : State) : s.quiet.emitted = s.emitted := rfl
@[simp] theorem State.quiet_responded (s : State) : s.quiet.responded = s.responded := rfl
@[simp] theorem State.quiet_host (s : State) : s.quiet.host = waitMoves s.host := rfl
@[simp] theorem State.quiet_draws (s : State) : s.quiet.draws = s.draws := rfl

/-! `State.orientTo`: ORIENT and the full-screen mask. -/

@[simp] theorem State.orientTo_cfg (s : State) (o : BitVec 2) : (s.orientTo o).cfg = s.cfg := rfl
@[simp] theorem State.orientTo_font (s : State) (o : BitVec 2) : (s.orientTo o).font = s.font := rfl
@[simp] theorem State.orientTo_src (s : State) (o : BitVec 2) : (s.orientTo o).src = s.src := rfl
@[simp] theorem State.orientTo_orient (s : State) (o : BitVec 2) : (s.orientTo o).orient = o := rfl
@[simp] theorem State.orientTo_penX (s : State) (o : BitVec 2) : (s.orientTo o).penX = s.penX := rfl
@[simp] theorem State.orientTo_penY (s : State) (o : BitVec 2) : (s.orientTo o).penY = s.penY := rfl
@[simp] theorem State.orientTo_curX (s : State) (o : BitVec 2) : (s.orientTo o).curX = s.curX := rfl
@[simp] theorem State.orientTo_curY (s : State) (o : BitVec 2) : (s.orientTo o).curY = s.curY := rfl
@[simp] theorem State.orientTo_gcolor (s : State) (o : BitVec 2) : (s.orientTo o).gcolor = s.gcolor := rfl
@[simp] theorem State.orientTo_fontValid (s : State) (o : BitVec 2) : (s.orientTo o).fontValid = s.fontValid := rfl
@[simp] theorem State.orientTo_fontBase (s : State) (o : BitVec 2) : (s.orientTo o).fontBase = s.fontBase := rfl
@[simp] theorem State.orientTo_fw (s : State) (o : BitVec 2) : (s.orientTo o).fw = s.fw := rfl
@[simp] theorem State.orientTo_fh (s : State) (o : BitVec 2) : (s.orientTo o).fh = s.fh := rfl
@[simp] theorem State.orientTo_lines (s : State) (o : BitVec 2) : (s.orientTo o).lines = s.lines := rfl
@[simp] theorem State.orientTo_busy (s : State) (o : BitVec 2) : (s.orientTo o).busy = s.busy := rfl
@[simp] theorem State.orientTo_resp (s : State) (o : BitVec 2) : (s.orientTo o).resp = s.resp := rfl
@[simp] theorem State.orientTo_respValid (s : State) (o : BitVec 2) : (s.orientTo o).respValid = s.respValid := rfl
@[simp] theorem State.orientTo_respPending (s : State) (o : BitVec 2) : (s.orientTo o).respPending = s.respPending := rfl
@[simp] theorem State.orientTo_latch (s : State) (o : BitVec 2) : (s.orientTo o).latch = s.latch := rfl
@[simp] theorem State.orientTo_queue (s : State) (o : BitVec 2) : (s.orientTo o).queue = s.queue := rfl
@[simp] theorem State.orientTo_emitted (s : State) (o : BitVec 2) : (s.orientTo o).emitted = s.emitted := rfl
@[simp] theorem State.orientTo_responded (s : State) (o : BitVec 2) : (s.orientTo o).responded = s.responded := rfl
@[simp] theorem State.orientTo_host (s : State) (o : BitVec 2) : (s.orientTo o).host = s.host := rfl
@[simp] theorem State.orientTo_draws (s : State) (o : BitVec 2) : (s.orientTo o).draws = s.draws := rfl

theorem State.emit_nil (s : State) : s.emit [] = s := by simp [State.emit]

theorem State.emit_emit (s : State) (es fs : List BusEvent) : (s.emit es).emit fs = s.emit (es ++ fs) := by
  simp [State.emit]

/-! The derived readings see only what they read. -/

@[simp] theorem State.emit_w (s : State) (es : List BusEvent) : (s.emit es).w = s.w := rfl
@[simp] theorem State.emit_h (s : State) (es : List BusEvent) : (s.emit es).h = s.h := rfl
@[simp] theorem State.emit_mask (s : State) (es : List BusEvent) : (s.emit es).mask = s.mask := rfl
@[simp] theorem State.emit_clipRect (s : State) (es : List BusEvent) (q : Rect) :
    (s.emit es).clipRect q = s.clipRect q := rfl
@[simp] theorem State.emit_fontAt (s : State) (es : List BusEvent) (a : Int) : (s.emit es).fontAt a = s.fontAt a := rfl
@[simp] theorem State.emit_srcAt (s : State) (es : List BusEvent) (a : Int) : (s.emit es).srcAt a = s.srcAt a := rfl
@[simp] theorem State.accept_w (s : State) (w : CmdWord) : (s.accept w).w = s.w := rfl
@[simp] theorem State.accept_h (s : State) (w : CmdWord) : (s.accept w).h = s.h := rfl
@[simp] theorem State.accept_mask (s : State) (w : CmdWord) : (s.accept w).mask = s.mask := rfl

/-- Block reset from the state after reset, with the free values counted from 0 again, is the state after reset. -/
theorem State.reset_eq_blockReset : ({ State.reset with draws := 0 }).blockReset = State.reset := rfl

end Sys2Proof.Machine
end

