-- ==== Sys2Proof/Laws/Ops.lean ====
section
/-! SUPPORT. Laws/Ops.lean: for each shared body, everything it can do. -/

namespace Sys2Proof.Machine

/-- W and H are panel sizes, so they lie in 1..32768 (00_scope R5, 10_state R13). -/
theorem State.w_bounds (s : State) : 1 ≤ s.w ∧ s.w ≤ 32768 := by
  have h1 := s.cfg.lastCol.isLt
  have h2 := s.cfg.lastRow.isLt
  simp only [State.w, Cfg.panelW, Cfg.panelH]
  split <;> omega

theorem State.h_bounds (s : State) : 1 ≤ s.h ∧ s.h ≤ 32768 := by
  have h1 := s.cfg.lastCol.isLt
  have h2 := s.cfg.lastRow.isLt
  simp only [State.h, Cfg.panelW, Cfg.panelH]
  split <;> omega

/-- The body of RECTFILL drops, or emits one solid window transaction on the clipped rectangle. -/
theorem State.rectfillBody_cases (s : State) (q : Rect) (c : Colour) :
    (s.clipRect q = none ∧ s.rectfillBody q c = s) ∨
      ∃ w, s.clipRect q = some w ∧ s.rectfillBody q c = s.emit (fill s.cfg w c) := by
  unfold State.rectfillBody
  cases h : s.clipRect q with
  | none => exact .inl ⟨rfl, rfl⟩
  | some w => exact .inr ⟨w, rfl, rfl⟩

/-- The body of RECTFILL only adds events: those of the clipped rectangle, if any. -/
theorem State.rectfillBody_eq_emit (s : State) (q : Rect) (c : Colour) :
    s.rectfillBody q c = s.emit ((s.clipRect q).elim [] fun w => fill s.cfg w c) := by
  unfold State.rectfillBody
  cases s.clipRect q with
  | none => exact (State.emit_nil s).symm
  | some w => rfl

/-- The body of RECT drops, or adds the events of its four clipped edges in order. -/
theorem State.rectBody_eq_emit (s : State) (q : Rect) (c : Colour) :
    s.rectBody q c = s.emit (if q.l > q.r ∨ q.t > q.b then []
      else q.edges.flatMap fun e => (s.clipRect e).elim [] fun w => fill s.cfg w c) := by
  unfold State.rectBody
  split
  · exact (State.emit_nil s).symm
  · simp only [Rect.edges, List.foldl, State.rectfillBody_eq_emit, State.emit_emit, State.emit_clipRect,
      State.emit_cfg, List.flatMap_cons, List.flatMap_nil, List.append_nil, List.append_assoc]

/-- The body of BLT drops, or emits one window transaction on the clipped rectangle. -/
theorem State.bltBody_cases (s : State) (q : Rect) (base : Addr) :
    (s.clipRect q = none ∧ s.bltBody q base = s) ∨
      ∃ w, s.clipRect q = some w ∧
        s.bltBody q base = s.emit (windowTx s.cfg w (w.points.map fun p => s.bltWord q base p.1 p.2)) := by
  unfold State.bltBody
  cases h : s.clipRect q with
  | none => exact .inl ⟨rfl, rfl⟩
  | some w => exact .inr ⟨w, rfl, rfl⟩

/-- FONTFACE drops, or latches the table's address and cell size. -/
theorem State.fontfaceBody_cases (s : State) (base : Addr) :
    (s.fontSigOk base = false ∧ s.fontfaceBody base = s) ∨
      (s.fontSigOk base = true ∧ s.fontfaceBody base =
        { s with
          fontBase := base
          fw := s.fontAt (base.toNat + 14)
          fh := s.fontAt (base.toNat + 15)
          fontValid := true }) := by
  unfold State.fontfaceBody
  split
  · next h => exact .inr ⟨h, rfl⟩
  · next h => exact .inl ⟨by simpa using h, rfl⟩

/-- A printable character drops, or emits one window transaction at the cursor and moves the cursor right. -/
theorem State.printGlyph_cases (s : State) (ch : Byte) :
    s.printGlyph ch = s ∨
      (s.fontValid = true ∧ s.cursorOnScreen = true ∧ s.glyphW ≠ 0 ∧ s.glyphH ≠ 0) ∧
        s.printGlyph ch =
          { s.emit (windowTx s.cfg s.glyphWindow (s.glyphWords (glyphIndex ch) s.glyphW s.glyphH)) with
            curX := wrap16 (s.curX.toInt + s.glyphW) } := by
  unfold State.printGlyph
  split
  · exact .inl rfl
  · next h1 =>
    split
    · exact .inl rfl
    · next h2 =>
      split
      · exact .inl rfl
      · next h3 =>
        refine .inr ⟨⟨by simpa using h1, by simpa using h2, ?_, ?_⟩, rfl⟩
        · exact fun h => h3 (.inl h)
        · exact fun h => h3 (.inr h)

/-- SETORIENT drops, or writes the scan-direction register and resets mask, pen and cursor. -/
theorem State.setorientBody_cases (s : State) (o : Nat) :
    (3 < o ∧ s.setorientBody o = s) ∨
      (o ≤ 3 ∧ s.setorientBody o =
        ((s.emit (cmdx s.cfg.madctl [Cfg.orientValue s.cfg (BitVec.ofNat 2 o)])).orientTo (BitVec.ofNat 2 o)).home) := by
  unfold State.setorientBody
  split
  · next h => exact .inl ⟨h, rfl⟩
  · next h => exact .inr ⟨by omega, rfl⟩

/-- After a change of orientation the mask is the whole logical screen (10_state R14). -/
theorem State.orientTo_mask_eq_screen (s : State) (o : BitVec 2) : (s.orientTo o).mask = (s.orientTo o).screen := by
  have b1 := State.w_bounds { s with orient := o }
  have b2 := State.h_bounds { s with orient := o }
  simp only [State.orientTo, State.setMask, State.mask]
  simp only [State.screen]
  rw [toInt_wrap16 (n := 0) (by omega) (by omega), toInt_wrap16 (by omega) (by omega),
    toInt_wrap16 (by omega) (by omega)]
  rfl

/-- Under the full-screen mask, ClipRect of the screen is the screen (45 R151 step 6). -/
theorem State.clipRect_screen {s : State} (h : s.mask = s.screen) : s.clipRect s.screen = some s.screen := by
  have b1 := s.w_bounds
  have b2 := s.h_bounds
  unfold State.clipRect
  simp only [h]
  rw [if_neg (by simp [State.screen]; omega), if_neg (by simp [State.screen]; omega)]
  simp

/-- INIT in one line: all its events join Q, the orientation is reset, FONTFACE runs, pen and cursor go home (45 R151). -/
theorem State.initBody_eq (s : State) :
    s.initBody = (((s.orientTo 0).emit (resetPulse s.cfg ++ tableEvents s.cfg.initTable
      ++ fill s.cfg (s.orientTo 0).screen Config.black ++ cmdx s.cfg.dispon [])).fontfaceBody s.cfg.defaultFontBase).home := by
  have h := State.clipRect_screen (State.orientTo_mask_eq_screen s 0)
  have e : ∀ es, (s.emit es).orientTo 0 = (s.orientTo 0).emit es := fun _ => rfl
  unfold State.initBody
  simp only [State.emit_cfg, e, State.rectfillBody_eq_emit, State.emit_emit, State.emit_clipRect]
  erw [h]
  rfl

/-- PUTCHAR of a character that is no control character (44 R136, R137). -/
theorem State.putcharBody_printable (s : State) {ch : Byte} (h : ch ∉ [0x0A#8, 0x0D#8, 0x08#8, 0x0C#8]) :
    s.putcharBody ch = s.printGlyph ch := by
  simp only [List.mem_cons, not_or] at h
  obtain ⟨h1, h2, h3, h4, _⟩ := h
  unfold State.putcharBody
  erw [if_neg h1, if_neg h2, if_neg h3, if_neg h4]

/-- The walk of `count` steps has `count` steps. -/
theorem length_ddaWalk (count : Nat) (major dir acc inc : Int) : (ddaWalk count major dir acc inc).length = count := by
  induction count generalizing major acc with
  | zero => rfl
  | succ n ih => simp [ddaWalk, ih]

end Sys2Proof.Machine
end

