-- ==== Sys2Proof/Laws/Panel.lean ====
section
/-! SUPPORT. Laws/Panel.lean: how the reading of a trace (Machine/Panel.lean) and the pixel count of Safety.lean go through a
concatenation, a window transaction and a command transaction. -/

namespace Sys2Proof.Machine

open Sys2Proof.Safety

/-- The two bytes of a 16-bit value make it up. -/
theorem highByte_append_lowByte (w : Half) : highByte w ++ lowByte w = w := by
  apply BitVec.eq_of_getLsbD_eq
  intro i hi
  simp only [BitVec.getLsbD_append, highByte, lowByte, BitVec.getLsbD_extractLsb']
  by_cases h : i < 8
  · simp [h]
  · simp [h, show i - 8 < 8 by omega, show 8 + (i - 8) = i by omega]

/-- A window coordinate arrives as it was sent, if it fits the bus (40 R83). -/
theorem coordinate_bytes {n : Int} (h1 : 0 ≤ n) (h2 : n ≤ 65535) :
    coordinate (highByte (wrap16 n)) (lowByte (wrap16 n)) = n := by
  have h := highByte_append_lowByte (wrap16 n)
  unfold coordinate
  erw [h]
  exact toNat_wrap16 h1 h2

theorem PanelView.pixels_append (c : Cfg) (v : PanelView) (es fs : List BusEvent) :
    v.pixels c (es ++ fs) = v.pixels c es ++ (es.foldl (PanelView.next c) v).pixels c fs := by
  induction es generalizing v with
  | nil => rfl
  | cons e es ih => simp [PanelView.pixels, ih]

theorem exactFrom_append (c : Cfg) (v : PanelView) (es fs : List BusEvent) :
    exactFrom c v (es ++ fs) = (exactFrom c v es && exactFrom c (es.foldl (PanelView.next c) v) fs) := by
  induction es generalizing v with
  | nil => rfl
  | cons e es ih => cases e <;> simp [exactFrom, ih, Bool.and_assoc]

/-- A transaction leaves the reading at the start of a selection. -/
theorem PanelView.foldl_windowTx (c : Cfg) (v : PanelView) (q : Rect) (ws : List Colour) :
    (windowTx c q ws).foldl (PanelView.next c) v = PanelView.start := by
  rw [windowTx, List.foldl_append]
  rfl

theorem PanelView.foldl_cmdx (c : Cfg) (v : PanelView) (b : Byte) (ds : List Byte) :
    (cmdx b ds).foldl (PanelView.next c) v = PanelView.start := by
  rw [cmdx, List.foldl_append]
  rfl

/-- A selection that is not a pixel stream keeps its command bytes through data bytes and writes no pixel. -/
theorem PanelView.data_not_streaming (c : Cfg) (v : PanelView) (ds : List Byte) (h : v.cmds ≠ [c.caset, c.paset, c.ramwr]) :
    ((ds.map BusEvent.data).foldl (PanelView.next c) v).cmds = v.cmds ∧ v.pixels c (ds.map .data) = [] := by
  induction ds generalizing v with
  | nil => exact ⟨rfl, rfl⟩
  | cons d ds ih =>
    have hs : v.streaming c = false := by simp [PanelView.streaming, h]
    have := ih (v.next c (.data d)) (by simp [PanelView.next, hs, h])
    constructor
    · rw [List.map_cons, List.foldl_cons, this.1]
      simp [PanelView.next, hs]
    · rw [List.map_cons, PanelView.pixels, this.2]
      simp [PanelView.write, hs]

/-- A command transaction writes no pixel. -/
theorem PanelView.pixels_cmdx (c : Cfg) (v : PanelView) (b : Byte) (ds : List Byte) : v.pixels c (cmdx b ds) = [] := by
  rw [cmdx, PanelView.pixels_append, PanelView.pixels_append, List.foldl_append]
  have h := PanelView.data_not_streaming c ([BusEvent.sel, .cmd b].foldl (PanelView.next c) v) ds
    (by simp [PanelView.next, PanelView.start])
  rw [h.2]
  simp [PanelView.pixels, PanelView.write]

theorem exactFrom_data (c : Cfg) (v : PanelView) (ds : List Byte) : exactFrom c v (ds.map .data) = true := by
  induction ds generalizing v with
  | nil => rfl
  | cons d ds ih => exact ih _

/-- A command transaction opens no window, so its pixel count is exact. -/
theorem exactFrom_cmdx (c : Cfg) (v : PanelView) (b : Byte) (ds : List Byte) : exactFrom c v (cmdx b ds) = true := by
  rw [cmdx, exactFrom_append, exactFrom_append, exactFrom_data, List.foldl_append]
  have h := PanelView.data_not_streaming c ([BusEvent.sel, .cmd b].foldl (PanelView.next c) v) ds
    (by simp [PanelView.next, PanelView.start])
  simp only [exactFrom, countOk, PanelView.streaming, h.1]
  simp [PanelView.next, PanelView.start]

end Sys2Proof.Machine
end

