-- ==== Sys2Proof/Laws/PerInstr.lean ====
section
/-! SUPPORT. Laws/PerInstr.lean: the per-operation family EncodeOpc: an encoding carries the operation's own OPC, and that
OPC is not reserved (spec 30_encoding R62, R67, R73). -/

namespace Sys2Proof.Laws.EncodeOpc

/-- The OPC field of the encoding is the operation's OPC, and the decoder reads no reserved opcode from it. -/
def Statement (i : Instr) : Prop := fieldOpc (encode i) = i.opcode ∧ ∀ o, decode (encode i) ≠ .reserved o

theorem init : Statement .init := by
  have h : fieldOpc (encode .init) = 0x01 := fieldOpc_packWord ..
  exact ⟨h, fun o => by simp [decode, h]⟩

theorem setorient (o : Nat) : Statement (.setorient o) := by
  have h : fieldOpc (encode (.setorient o)) = 0x02 := fieldOpc_packWord ..
  exact ⟨h, fun o => by simp [decode, h]⟩

theorem getw : Statement .getw := by
  have h : fieldOpc (encode .getw) = 0x03 := fieldOpc_packWord ..
  exact ⟨h, fun o => by simp [decode, h]⟩

theorem geth : Statement .geth := by
  have h : fieldOpc (encode .geth) = 0x04 := fieldOpc_packWord ..
  exact ⟨h, fun o => by simp [decode, h]⟩

theorem packrgb (r g b : Byte) : Statement (.packrgb r g b) := by
  have h : fieldOpc (encode (.packrgb r g b)) = 0x05 := fieldOpc_packWord ..
  exact ⟨h, fun o => by simp [decode, h]⟩

theorem setmask (l r t b : Int) : Statement (.setmask l r t b) := by
  have h : fieldOpc (encode (.setmask l r t b)) = 0x10 := fieldOpc_packWord ..
  exact ⟨h, fun o => by simp [decode, h]⟩

theorem scrolldef (x y z : Half) : Statement (.scrolldef x y z) := by
  have h : fieldOpc (encode (.scrolldef x y z)) = 0x20 := fieldOpc_packWord ..
  exact ⟨h, fun o => by simp [decode, h]⟩

theorem scrollstart (x : Half) : Statement (.scrollstart x) := by
  have h : fieldOpc (encode (.scrollstart x)) = 0x21 := fieldOpc_packWord ..
  exact ⟨h, fun o => by simp [decode, h]⟩

theorem rectfill (l r t b : Int) (c : Colour) : Statement (.rectfill l r t b c) := by
  have h : fieldOpc (encode (.rectfill l r t b c)) = 0x30 := fieldOpc_packWord ..
  exact ⟨h, fun o => by simp [decode, h]⟩

theorem rect (l r t b : Int) (c : Colour) : Statement (.rect l r t b c) := by
  have h : fieldOpc (encode (.rect l r t b c)) = 0x31 := fieldOpc_packWord ..
  exact ⟨h, fun o => by simp [decode, h]⟩

theorem blt (l r t b : Int) (src : Addr) : Statement (.blt l r t b src) := by
  have h : fieldOpc (encode (.blt l r t b src)) = 0x32 := fieldOpc_packWord ..
  exact ⟨h, fun o => by simp [decode, h]⟩

theorem moveto (x y : Int) : Statement (.moveto x y) := by
  have h : fieldOpc (encode (.moveto x y)) = 0x40 := fieldOpc_packWord ..
  exact ⟨h, fun o => by simp [decode, h]⟩

theorem lineto (x y : Int) (c : Colour) : Statement (.lineto x y c) := by
  have h : fieldOpc (encode (.lineto x y c)) = 0x41 := fieldOpc_packWord ..
  exact ⟨h, fun o => by simp [decode, h]⟩

theorem line (x1 y1 x2 y2 : Int) (c : Colour) : Statement (.line x1 y1 x2 y2 c) := by
  have h : fieldOpc (encode (.line x1 y1 x2 y2 c)) = 0x42 := fieldOpc_packWord ..
  exact ⟨h, fun o => by simp [decode, h]⟩

theorem fontface (base : Addr) : Statement (.fontface base) := by
  have h : fieldOpc (encode (.fontface base)) = 0x50 := fieldOpc_packWord ..
  exact ⟨h, fun o => by simp [decode, h]⟩

theorem fontcolor (p : BitVec 32) : Statement (.fontcolor p) := by
  have h : fieldOpc (encode (.fontcolor p)) = 0x51 := fieldOpc_packWord ..
  exact ⟨h, fun o => by simp [decode, h]⟩

theorem locate (col row : Nat) : Statement (.locate col row) := by
  have h : fieldOpc (encode (.locate col row)) = 0x52 := fieldOpc_packWord ..
  exact ⟨h, fun o => by simp [decode, h]⟩

theorem putchar (ch : Byte) : Statement (.putchar ch) := by
  have h : fieldOpc (encode (.putchar ch)) = 0x53 := fieldOpc_packWord ..
  exact ⟨h, fun o => by simp [decode, h]⟩

theorem getfw : Statement .getfw := by
  have h : fieldOpc (encode .getfw) = 0x54 := fieldOpc_packWord ..
  exact ⟨h, fun o => by simp [decode, h]⟩

theorem getfh : Statement .getfh := by
  have h : fieldOpc (encode .getfh) = 0x55 := fieldOpc_packWord ..
  exact ⟨h, fun o => by simp [decode, h]⟩

end Sys2Proof.Laws.EncodeOpc
end

