-- ==== Sys2Proof/Laws/Sequencer.lean ====
section
/-! SUPPORT. Laws/Sequencer.lean: what one step can be, and what a busy step does. -/

namespace Sys2Proof.Machine

/-- Every step is a block reset, a step of a busy block, a quiet step, or an acceptance. -/
theorem step_cases {s t : State} (h : step s = .next t) :
    (s.nextAction = .blockReset ∧ t = s.blockReset) ∨
    (s.nextAction = .drain ∧ t = s.drain) ∨
    (s.nextAction = .quiet ∧ t = s.quiet) ∨
    (∃ w o, s.nextAction = .accept w ∧ decode w = .reserved o ∧ t = s.accept w) ∨
    (∃ w i, s.nextAction = .accept w ∧ decode w = .instr i ∧ exec i (s.accept w) = .next t) := by
  unfold step at h
  cases ha : s.nextAction with
  | blockReset => rw [ha] at h; cases h; exact .inl ⟨rfl, rfl⟩
  | drain => rw [ha] at h; cases h; exact .inr (.inl ⟨rfl, rfl⟩)
  | quiet => rw [ha] at h; cases h; exact .inr (.inr (.inl ⟨rfl, rfl⟩))
  | accept w =>
    rw [ha] at h
    cases hd : decode w with
    | reserved o => simp only [hd] at h; cases h; exact .inr (.inr (.inr (.inl ⟨w, o, rfl, hd, rfl⟩)))
    | instr i => simp only [hd] at h; exact .inr (.inr (.inr (.inr ⟨w, i, rfl, hd, h⟩)))

/-- A word is accepted only by an idle block, from the head of the host's moves. -/
theorem State.nextAction_accept {s : State} {w : CmdWord} (h : s.nextAction = .accept w) :
    s.busy = false ∧ ∃ rest, s.host = .issue w :: rest := by
  unfold State.nextAction at h
  split at h
  · cases h
  · next w' rest hh =>
    split at h
    · cases h
    · next hb =>
      cases h
      exact ⟨by simpa using hb, rest, hh⟩
  · split at h <;> cases h

theorem State.nextAction_drain {s : State} (h : s.nextAction = .drain) : s.busy = true := by
  unfold State.nextAction at h
  split at h
  · cases h
  · split at h
    · assumption
    · cases h
  · split at h
    · assumption
    · cases h

/-- A step of a busy block emits the head of Q, if any, and completes when Q is then empty. -/
theorem State.drain_cases (s : State) :
    (s.queue = [] ∧ s.drain = s.quiet.complete) ∨
    (∃ e, s.queue = [e] ∧ s.drain = ({ s.quiet with queue := [] }.emitNow e).complete) ∨
    (∃ e e' rest, s.queue = e :: e' :: rest ∧ s.drain = { s.quiet with queue := e' :: rest }.emitNow e) := by
  unfold State.drain
  split
  · next h => exact .inl ⟨h, rfl⟩
  · next e h => exact .inr (.inl ⟨e, h, rfl⟩)
  · next e rest hne h =>
    cases rest with
    | nil => exact (hne rfl).elim
    | cons e' rest => exact .inr (.inr ⟨e, e', rest, h, rfl⟩)

/-- Running on after one step. -/
theorem run_next {s t : State} (k : Nat) (h : step s = .next t) :
    Host.Core.run Sys2Proof.core (k + 1) s = Host.Core.run Sys2Proof.core k t := by
  have general : ∀ {M : Host.Core} {s t : M.State}, M.step s = .next t → M.run (k + 1) s = M.run k t := by
    intro M s t h
    simp only [Host.Core.run, h]
  exact general (M := Sys2Proof.core) h

end Sys2Proof.Machine
end

