-- ==== Sys2Proof/Tests/Slice0.lean ====
section
/-! SUPPORT. Tests/Slice0.lean: the model's own tests. Expected results come from spec/95_test_vectors.md, whose vector is
named at each test, or from the rule's own words; the witnesses show that the hypotheses of the statements can be met. -/

namespace Sys2Proof.Tests

open Sys2Proof.Machine Sys2Proof.Safety

/-! ### Fixtures (95 section 0) -/

/-- TC0 (00_scope R5, 95 0.1). -/
def tc0 : Cfg where
  lastCol := 239
  lastRow := 319
  caset := 0x2A
  paset := 0x2B
  ramwr := 0x2C
  madctl := 0x36
  orientReg := #v[0x48, 0x28, 0x88, 0xE8]
  dispon := 0x29
  vscrdef := 0x33
  vscrsadd := 0x37
  initTable := [{ cmd := 0x3A, data := [0x55], wait := 0 }, { cmd := 0x11, data := [], wait := 120 }]
  resetLowExtra := 0
  resetWaitExtra := 0
  timeUnit := 1
  fontSig := #v[0x54, 0x53, 0x54, 0x46, 0x4E, 0x54]
  defaultFontBase := 0x1000

/-- TC0 with a panel of 2 columns and 1 row, so that a full-screen fill is short. -/
def tiny : Cfg := { tc0 with lastCol := 1, lastRow := 0 }

/-- Place values from an address on. -/
def place {w : Nat} (a : Nat) (vs : List (BitVec w)) (m : Mem w) : Mem w :=
  match vs with
  | [] => m
  | v :: vs => place (a + 1) vs (Mem.write m a v)

/-- The test font TF1 at 0x1000, TF2 at 0x3000 (95 0.3), and the table of S6 (c) at 0x4000. -/
def testFont : Mem 8 :=
  place 0x1000 [0x54, 0x53, 0x54, 0x46, 0x4E, 0x54] <| place 0x100E [0x0A, 0x03] <|
  place 0x10D7 [0x80, 0x40, 0xFF, 0xC0, 0x00, 0x00, 0xAA, 0x80, 0x55, 0x40, 0xFF, 0xC0] <|
  place 0x3000 [0x54, 0x53, 0x54, 0x46, 0x4E, 0x54] <| place 0x300E [0x09, 0x03] <|
  place 0x30D7 [0x80, 0x80, 0x7F, 0x00, 0xC1, 0x80] <| place 0x4000 [0x54, 0x53, 0x54, 0x46, 0x4E, 0x55] []

/-- The SRC contents of 95 0.4. -/
def testSrc : Mem 16 :=
  place 0x100 [0x1000, 0x1001, 0x1002, 0x1003, 0x1004, 0x1005, 0x1006, 0x1007, 0x1008] <|
  place 0x200 [0xA000, 0xA001, 0xA002, 0xA003, 0xA004, 0xA005, 0xA006, 0xA007] []

/-- S0 for a configuration (95 0.2). -/
def start (c : Cfg) : State := { State.reset with cfg := c, font := testFont, src := testSrc }.blockReset

/-- S0 of TC0. -/
def s0 : State := start tc0

/-- S0 with another mask. -/
def masked (l r t b : Half) : State := { s0 with maskL := l, maskR := r, maskT := t, maskB := b }

/-- S0 with the font TF1 registered (95 S6 (b)), black on white as in V-TXT-1, and the cursor at a place. -/
def tf1 (x y : Half) : State :=
  { s0 with fontValid := true, fontBase := 0x1000, fw := 10, fh := 3, gcolor := 0x0000FFFF, curX := x, curY := y }

/-- S0 with TF2 registered and the colours of V-TXT-2. -/
def tf2 (x y : Half) : State :=
  { s0 with fontValid := true, fontBase := 0x3000, fw := 9, fh := 3, gcolor := 0x001FF800, curX := x, curY := y }

/-- A reading of the state one step after the word is presented. -/
def after {α : Type} (s : State) (w : CmdWord) (read : State → α) : Option α :=
  match step (s.present w) with
  | .next t => some (read t)
  | _ => none

/-- A 16-bit value as two data bytes, high byte first (95 0.5). -/
def pair (n : Nat) : List BusEvent := [.data (BitVec.ofNat 8 (n / 256)), .data (BitVec.ofNat 8 (n % 256))]

/-- `TX(l, r, t, b)[..]` written out as in 95 0.5. -/
def tx (l r t b : Nat) (ps : List Nat) : List BusEvent :=
  [.sel, .cmd 0x2A] ++ pair l ++ pair r ++ [.cmd 0x2B] ++ pair t ++ pair b ++ [.cmd 0x2C] ++ ps.flatMap pair ++ [.rel]

/-- The mask as four integers. -/
def maskOf (s : State) : List Int := [s.maskL.toInt, s.maskR.toInt, s.maskT.toInt, s.maskB.toInt]

/-- The cursor as two integers. -/
def curOf (s : State) : List Int := [s.curX.toInt, s.curY.toInt]

/-- The pen as two integers. -/
def penOf (s : State) : List Int := [s.penX.toInt, s.penY.toInt]

/-! ### Decoding (95 section 2.1): one word of every operation, and V-ENC-1 to V-ENC-8 -/

theorem test_decode_init : decode 0x01000000000000000000000000 = .instr .init := by decide
theorem test_decode_setorient : decode 0x02000100000000000000000000 = .instr (.setorient 1) := by decide
theorem test_decode_getw : decode 0x03000000000000000000000000 = .instr .getw := by decide
theorem test_decode_geth : decode 0x04000000000000000000000000 = .instr .geth := by decide
theorem test_decode_packrgb : decode 0x05001200340056000000000000 = .instr (.packrgb 0x12 0x34 0x56) := by decide
theorem test_decode_setmask : decode 0x10000A0064001400C800000000 = .instr (.setmask 10 100 20 200) := by decide
theorem test_decode_scrolldef : decode 0x20000001400000000000000000 = .instr (.scrolldef 0 320 0) := by decide
theorem test_decode_scrollstart : decode 0x21006400000000000000000000 = .instr (.scrollstart 100) := by decide
theorem test_decode_rectfill :
    decode 0x30000A0014001E00280000F800 = .instr (.rectfill 10 20 30 40 0xF800) := by decide
theorem test_decode_rect : decode 0x310000000200000002000007E0 = .instr (.rect 0 2 0 2 0x07E0) := by decide
theorem test_decode_blt : decode 0x320009000C0005000600000200 = .instr (.blt 9 12 5 6 0x200) := by decide
theorem test_decode_moveto : decode 0x40FFFB01900000000000000000 = .instr (.moveto (-5) 400) := by decide
theorem test_decode_lineto : decode 0x4100040000000000000000FFFF = .instr (.lineto 4 0 0xFFFF) := by decide
theorem test_decode_line : decode 0x42FFFB0003000C00030000FFFF = .instr (.line (-5) 3 12 3 0xFFFF) := by decide
theorem test_decode_fontface : decode 0x50000000000000000000001000 = .instr (.fontface 0x1000) := by decide
theorem test_decode_fontcolor : decode 0x5100000000000000000000FFFF = .instr (.fontcolor 0x0000FFFF) := by decide
theorem test_decode_locate : decode 0x52000200050000000000000000 = .instr (.locate 2 5) := by decide
theorem test_decode_putchar : decode 0x53004100000000000000000000 = .instr (.putchar 0x41) := by decide
theorem test_decode_getfw : decode 0x54000000000000000000000000 = .instr .getfw := by decide
theorem test_decode_getfh : decode 0x55000000000000000000000000 = .instr .getfh := by decide

/-- V-ENC-1, V-ENC-2, V-ENC-6: unused bits are ignored. -/
theorem test_decode_unused_bits :
    decode 0x53FF41DEADBEEFCAFE12345678 = .instr (.putchar 0x41) ∧
    decode 0x30000A0014001E0028ABCDF800 = .instr (.rectfill 10 20 30 40 0xF800) ∧
    decode 0x01FFFFFFFFFFFFFFFFFFFFFFFF = .instr .init := by decide

/-- V-ENC-3 to V-ENC-5: reserved opcodes, refused by name. -/
theorem test_decode_reserved :
    decode 0x00000000000000000000000000 = .reserved 0x00 ∧ decode 0xFF123456789ABCDEF012345678 = .reserved 0xFF ∧
    decode 0x06000000000000000000000000 = .reserved 0x06 := by decide

/-- V-ENC-7, V-ENC-8: signed and unsigned operands at the ends of their ranges. -/
theorem test_decode_extremes :
    decode 0x40800080000000000000000000 = .instr (.moveto (-32768) (-32768)) ∧
    decode 0x02FFFF00000000000000000000 = .instr (.setorient 65535) := by decide

/-- 95 2.1: the assembler's words. -/
theorem test_encode :
    encode (.moveto (-5) 400) = 0x40FFFB01900000000000000000 ∧
    encode (.blt 9 12 5 6 0x200) = 0x320009000C0005000600000200 ∧
    encode (.packrgb 0x12 0x34 0x56) = 0x05001200340056000000000000 ∧
    encode (.locate 2 5) = 0x52000200050000000000000000 := by decide

/-- The host's reading of a table word: PUTCHAR, and none for a reserved opcode. -/
theorem test_decode_table_word :
    decodeTableWord 104 0x53004100000000000000000000 = some (.putchar 0x41) ∧ decodeTableWord 104 0 = none := by decide

/-- 30 R71: the pseudo-operations. -/
theorem test_pseudo :
    encode Pseudo.cls = 0x53000C00000000000000000000 ∧ Pseudo.puts [0x41, 0x42] = [.putchar 0x41, .putchar 0x42] ∧
    Pseudo.fontcolor2 0x001F 0xF800 = .fontcolor 0x001FF800 ∧ rgb565 0x12 0x34 0x56 = 0x11AA := by decide

/-! ### WellFormed refuses an ill-formed term at each check, and takes the ends of the ranges -/

theorem test_wf_setorient :
    (Instr.setorient 65536).wellFormed = false ∧ (Instr.setorient 65535).wellFormed = true := by decide
theorem test_wf_setmask :
    (Instr.setmask (-32769) 0 0 0).wellFormed = false ∧ (Instr.setmask 0 32768 0 0).wellFormed = false ∧
    (Instr.setmask 0 0 (-32769) 0).wellFormed = false ∧ (Instr.setmask 0 0 0 32768).wellFormed = false ∧
    (Instr.setmask (-32768) 32767 (-32768) 32767).wellFormed = true := by decide
theorem test_wf_rectfill :
    (Instr.rectfill (-32769) 0 0 0 0).wellFormed = false ∧ (Instr.rectfill 0 32768 0 0 0).wellFormed = false ∧
    (Instr.rectfill 0 0 (-32769) 0 0).wellFormed = false ∧ (Instr.rectfill 0 0 0 32768 0).wellFormed = false := by decide
theorem test_wf_rect :
    (Instr.rect 32768 0 0 0 0).wellFormed = false ∧ (Instr.rect 0 (-32769) 0 0 0).wellFormed = false ∧
    (Instr.rect 0 0 32768 0 0).wellFormed = false ∧ (Instr.rect 0 0 0 (-32769) 0).wellFormed = false := by decide
theorem test_wf_blt :
    (Instr.blt (-32769) 0 0 0 0).wellFormed = false ∧ (Instr.blt 0 32768 0 0 0).wellFormed = false ∧
    (Instr.blt 0 0 (-32769) 0 0).wellFormed = false ∧ (Instr.blt 0 0 0 32768 0).wellFormed = false := by decide
theorem test_wf_moveto :
    (Instr.moveto 32768 0).wellFormed = false ∧ (Instr.moveto 0 (-32769)).wellFormed = false := by decide
theorem test_wf_lineto :
    (Instr.lineto (-32769) 0 0).wellFormed = false ∧ (Instr.lineto 0 32768 0).wellFormed = false := by decide
theorem test_wf_line :
    (Instr.line 32768 0 0 0 0).wellFormed = false ∧ (Instr.line 0 (-32769) 0 0 0).wellFormed = false ∧
    (Instr.line 0 0 32768 0 0).wellFormed = false ∧ (Instr.line 0 0 0 (-32769) 0).wellFormed = false := by decide
theorem test_wf_locate :
    (Instr.locate 65536 0).wellFormed = false ∧ (Instr.locate 0 65536).wellFormed = false := by decide

/-! ### One step of each operation -/

/-- V-LIFE-5, program P0, on a 2 x 1 panel: INIT's events in order. -/
theorem test_init_events :
    after { start tiny with orient := 1 } 0x01000000000000000000000000 State.queue = some (
      [.gpioSetup, .busConfig, .rst false, .wait 10, .rst true, .wait 150, .sel, .cmd 0x3A, .data 0x55, .rel,
        .sel, .cmd 0x11, .rel, .wait 120] ++ tx 0 1 0 0 [0, 0] ++ [.sel, .cmd 0x29, .rel]) := by decide

/-- V-LIFE-7: INIT registers the default font over TF2, keeps GCOLOR, and resets orientation, pen and cursor. -/
theorem test_init_state :
    after { tf2 5 6 with orient := 1, penX := 3 } 0x01000000000000000000000000
      (fun t => (t.orient, maskOf t ++ penOf t ++ curOf t, [t.fontBase, t.gcolor], [t.fw, t.fh])) =
      some (0, [0, 239, 0, 319, 0, 0, 0, 0], [0x1000, 0x001FF800], [10, 3]) := by decide

/-- V-LIFE-1. -/
theorem test_setorient :
    after { masked 1 2 3 4 with penX := 3, penY := 4, curX := 5, curY := 6 } 0x02000100000000000000000000
      (fun t => (t.queue, t.orient, maskOf t, penOf t ++ curOf t)) =
      some ([.sel, .cmd 0x36, .data 0x28, .rel], 1, [0, 319, 0, 239], [0, 0, 0, 0]) := by decide

/-- V-LIFE-3, V-ENC-8: an orientation above 3 is dropped. -/
theorem test_setorient_drop :
    after (masked 1 2 3 4) 0x02000400000000000000000000 (fun t => (t.queue, t.orient, maskOf t)) =
      some ([], 0, [1, 2, 3, 4]) ∧
    after s0 0x02FFFF00000000000000000000 (fun t => (t.queue, t.orient)) = some ([], 0) := by decide

/-- V-LIFE-4: GETW and GETH in ORIENT 3. -/
theorem test_getw :
    after { s0 with orient := 3 } 0x03000000000000000000000000 (fun t => (t.queue, t.responded)) = some ([], [320]) := by
  decide
theorem test_geth :
    after { s0 with orient := 3 } 0x04000000000000000000000000 (fun t => (t.queue, t.responded)) = some ([], [240]) := by
  decide

/-- V-RGB: truncation, one bit above it, and the ignored high byte of A. -/
theorem test_packrgb :
    after s0 0x05000700030007000000000000 State.responded = some [0x0000] ∧
    after s0 0x05000800040008000000000000 State.responded = some [0x0821] ∧
    after s0 0x05AB1200340056000000000000 State.responded = some [0x11AA] := by decide

/-- V-MASK-1, V-MASK-3. -/
theorem test_setmask :
    after s0 0x10000A0064001400C800000000 maskOf = some [10, 100, 20, 200] ∧
    after (masked 1 2 3 4) 0x10000000EF0000013F00000000 maskOf = some [0, 239, 0, 319] := by decide

/-- V-MASK-2, V-MASK-5, V-MASK-6, V-MASK-8: dropped. -/
theorem test_setmask_drop :
    after s0 0x10000A00F0001400C800000000 maskOf = some [0, 239, 0, 319] ∧
    after s0 0x10FFFF000A0000000A00000000 maskOf = some [0, 239, 0, 319] ∧
    after s0 0x100014000A0000000A00000000 maskOf = some [0, 239, 0, 319] ∧
    after s0 0x10000000EF0000014000000000 maskOf = some [0, 239, 0, 319] := by decide

/-- V-BUS-5. -/
theorem test_scrolldef :
    after s0 0x20000001400000000000000000 State.queue =
      some [.sel, .cmd 0x33, .data 0x00, .data 0x00, .data 0x01, .data 0x40, .data 0x00, .data 0x00, .rel] := by decide

/-- V-BUS-6, V-BUS-7. -/
theorem test_scrollstart :
    after s0 0x21006400000000000000000000 State.queue = some [.sel, .cmd 0x37, .data 0x00, .data 0x64, .rel] ∧
    after s0 0x21FFFF00000000000000000000 State.queue = some [.sel, .cmd 0x37, .data 0xFF, .data 0xFF, .rel] := by decide

/-- V-RF-6 in full, and V-RF-2: clipped at the left and top edges of the screen. -/
theorem test_rectfill :
    after s0 0x3000070007000900090000ABCD State.queue = some [.sel, .cmd 0x2A, .data 0x00, .data 0x07, .data 0x00,
      .data 0x07, .cmd 0x2B, .data 0x00, .data 0x09, .data 0x00, .data 0x09, .cmd 0x2C, .data 0xAB, .data 0xCD, .rel] ∧
    after s0 0x30FFF60005FFF600050000001F State.queue = some (tx 0 5 0 5 (List.replicate 36 0x001F)) := by decide

/-- V-RF-3, V-RF-4: nothing. -/
theorem test_rectfill_drop :
    after s0 0x30000500040000000000000001 State.queue = some [] ∧
    after s0 0x3000F000FA0000000000000001 State.queue = some [] := by decide

/-- V-RECT-1: the four edges in order, left, right, top, bottom. -/
theorem test_rect :
    after s0 0x310000000200000002000007E0 State.queue = some (tx 0 0 0 2 [0x07E0, 0x07E0, 0x07E0]
      ++ tx 2 2 0 2 [0x07E0, 0x07E0, 0x07E0] ++ tx 0 2 0 0 [0x07E0, 0x07E0, 0x07E0]
      ++ tx 0 2 2 2 [0x07E0, 0x07E0, 0x07E0]) := by decide

/-- V-RECT-4, V-RECT-6, V-RECT-7: all edges outside the mask; two edges clipped away; inverted. -/
theorem test_rect_clipped :
    after (masked 10 20 10 20) 0x31000500190005001900000001 State.queue = some [] ∧
    after (masked 100 110 100 110) 0x310063006500630065000007E0 State.queue =
      some (tx 101 101 100 101 [0x07E0, 0x07E0] ++ tx 100 101 101 101 [0x07E0, 0x07E0]) ∧
    after s0 0x31000300020000000500000001 State.queue = some [] := by decide

/-- S7 in full, and V-BLT-3: clipped at the left and at the right. -/
theorem test_blt :
    after (masked 0 239 1 319) 0x32000000020000000200000100 State.queue = some [.sel, .cmd 0x2A, .data 0x00, .data 0x00,
      .data 0x00, .data 0x02, .cmd 0x2B, .data 0x00, .data 0x01, .data 0x00, .data 0x02, .cmd 0x2C, .data 0x10, .data 0x03,
      .data 0x10, .data 0x04, .data 0x10, .data 0x05, .data 0x10, .data 0x06, .data 0x10, .data 0x07, .data 0x10, .data 0x08,
      .rel] ∧
    after { masked 10 11 0 239 with orient := 1 } 0x320009000C0005000600000200 State.queue =
      some (tx 10 11 5 6 [0xA001, 0xA002, 0xA005, 0xA006]) := by decide

/-- V-BLT-7: inverted; V-BLT-8: the address wraps modulo 2^32 (here with a word at address 0). -/
theorem test_blt_edges :
    after s0 0x32000200000000000200000100 State.queue = some [] ∧
    after { s0 with src := [(0, 0xBEEF), (0xFFFFFFFF, 0xCAFE)] } 0x320000000100000000FFFFFFFF State.queue =
      some (tx 0 1 0 0 [0xCAFE, 0xBEEF]) := by decide

/-- V-LN-1. -/
theorem test_moveto : after s0 0x40FFFB01900000000000000000 (fun t => (t.queue, penOf t)) = some ([], [-5, 400]) := by decide

/-- V-LN-5, V-LN-6. -/
theorem test_lineto :
    after { masked 100 110 100 110 with penX := 98, penY := 100 } 0x4100670066000000000000FFFF
      (fun t => (t.queue, penOf t)) = some (tx 100 100 101 101 [0xFFFF] ++ tx 101 101 101 101 [0xFFFF]
        ++ tx 102 102 102 102 [0xFFFF] ++ tx 103 103 102 102 [0xFFFF], [103, 102]) ∧
    after { s0 with penX := 3, penY := 3 } 0x41000300030000000000001234 (fun t => (t.queue, penOf t)) =
      some (tx 3 3 3 3 [0x1234], [3, 3]) := by decide

/-- V-LN-3: the steps off the screen are skipped; V-LN-7: nothing drawn, the pen moves. -/
theorem test_line :
    after s0 0x42FFFEFFFF000200010000FFFF (fun t => (t.queue, penOf t)) =
      some (tx 0 0 0 0 [0xFFFF] ++ tx 1 1 1 1 [0xFFFF] ++ tx 2 2 1 1 [0xFFFF], [2, 1]) ∧
    after (masked 10 20 10 20) 0x4200000000000400000000FFFF (fun t => (t.queue, penOf t)) = some ([], [4, 0]) := by decide

/-- 95 2.7: a negative slope rounded toward zero, a floored negative accumulator, a y-major line and its reverse. -/
theorem test_line_steps :
    lineSteps 0 1 3 0 = [(0, 1), (1, 1), (2, 0), (3, 0)] ∧
    lineSteps (-2) (-1) 2 1 = [(-2, -1), (-1, 0), (0, 0), (1, 1), (2, 1)] ∧
    lineSteps 0 0 1 6 = [(0, 0), (0, 1), (0, 2), (0, 3), (1, 4), (1, 5), (1, 6)] ∧
    lineSteps 1 6 0 0 = [(1, 6), (1, 5), (1, 4), (1, 3), (0, 2), (0, 1), (0, 0)] := by decide

/-- S6 (b): registered; S6 (a), (c): dropped, the earlier font kept. -/
theorem test_fontface :
    after s0 0x50000000000000000000001000 (fun t => (t.fontValid, t.fontBase, t.fw, t.fh)) = some (true, 0x1000, 10, 3) := by
  decide
theorem test_fontface_drop :
    after (tf1 0 0) 0x50000000000000000000002000 (fun t => (t.fontValid, t.fontBase, t.fw, t.fh)) =
      some (true, 0x1000, 10, 3) ∧
    after s0 0x50000000000000000000004000 (fun t => (t.fontValid, t.fw, t.fh)) = some (false, 0, 0) := by decide

/-- V-TXT-19. -/
theorem test_fontcolor :
    after s0 0x510000000000000000001FF800 (fun t => (t.gcolor, t.background, t.foreground)) =
      some (0x001FF800, 0x001F, 0xF800) := by decide

/-- V-TXT-13, V-TXT-14 (wrapped), V-TXT-15 (no font). -/
theorem test_locate :
    after (tf1 0 0) 0x52000200050000000000000000 curOf = some [20, 15] ∧
    after (tf1 0 0) 0x521B5800000000000000000000 curOf = some [4464, 0] ∧
    after s0 0x52000200050000000000000000 curOf = some [0, 0] := by decide

/-- V-TXT-2 and V-TXT-3: a glyph, and the same cut at the right and bottom edges of the screen. -/
theorem test_putchar :
    after (tf2 0 0) 0x53004100000000000000000000 (fun t => (t.queue, curOf t)) = some (tx 0 8 0 2
      [0xF800, 0x001F, 0x001F, 0x001F, 0x001F, 0x001F, 0x001F, 0x001F, 0xF800,
        0x001F, 0xF800, 0xF800, 0xF800, 0xF800, 0xF800, 0xF800, 0xF800, 0x001F,
        0xF800, 0xF800, 0x001F, 0x001F, 0x001F, 0x001F, 0x001F, 0xF800, 0xF800], [9, 0]) ∧
    after (tf2 234 318) 0x53004100000000000000000000 (fun t => (t.queue, curOf t)) = some (tx 234 239 318 319
      [0xF800, 0x001F, 0x001F, 0x001F, 0x001F, 0x001F, 0x001F, 0xF800, 0xF800, 0xF800, 0xF800, 0xF800], [240, 318]) := by
  decide

/-- V-TXT-5, V-TXT-12 (`\n`), V-TXT-7 (`\r`), V-TXT-6, V-TXT-9 (`\b`, clamped), S5 (b) on a 2 x 1 panel (`\f`), V-TXT-4,
V-TXT-10, V-TXT-20 (dropped). -/
theorem test_putchar_control_and_drops :
    [after (tf1 240 0) 0x53000A00000000000000000000 curOf, after (tf1 0 32766) 0x53000A00000000000000000000 curOf,
      after (tf1 25 3) 0x53000D00000000000000000000 curOf, after (tf1 25 3) 0x53000800000000000000000000 curOf,
      after { s0 with curX := 0xFFFC, curY := 7 } 0x53000800000000000000000000 curOf] =
      [some [0, 3], some [0, -32767], some [0, 3], some [15, 3], some [0, 7]] ∧
    after { start tiny with curX := 5, curY := 5, maskL := 1 } 0x53000C00000000000000000000
      (fun t => (t.queue, curOf t, maskOf t)) = some (tx 0 1 0 0 [0, 0], [0, 0], [1, 1, 0, 0]) ∧
    [after (tf1 240 0) 0x53004200000000000000000000 (fun t => (t.queue, curOf t)),
      after s0 0x53004100000000000000000000 (fun t => (t.queue, curOf t)),
      after { tf1 0 0 with fw := 0 } 0x53004100000000000000000000 (fun t => (t.queue, curOf t))] =
      [some ([], [240, 0]), some ([], [0, 0]), some ([], [0, 0])] := by
  decide

/-- V-TXT-17, V-TXT-18. -/
theorem test_getfw :
    after (tf1 0 0) 0x54000000000000000000000000 State.responded = some [10] ∧
    after s0 0x54000000000000000000000000 State.responded = some [0] := by decide
theorem test_getfh :
    after (tf1 0 0) 0x55000000000000000000000000 State.responded = some [3] ∧
    after s0 0x55000000000000000000000000 State.responded = some [0] := by decide

/-- 95 2.9: bits of the glyph 'A' of TF1, and the address of glyph -23. -/
theorem test_glyph_bit :
    (tf1 0 0).glyphBit 0x21 0 0 = true ∧ (tf1 0 0).glyphBit 0x21 0 9 = true ∧ (tf1 0 0).glyphBit 0x21 0 8 = false ∧
    (tf1 0 0).glyphBit 0x21 1 9 = true ∧ (tf1 0 0).glyphBit 0x21 2 5 = false ∧
    mod32 ((tf1 0 0).glyphAddr (glyphIndex 0x09) 0 0) = 0x0F87 := by decide

/-! ### Clipper, bus, sequencer -/

/-- V-CLIP-1, 2, 4, 5, 8, 9, 10. -/
theorem test_clip :
    (masked 10 20 10 20).clipRect ⟨5, 25, 5, 25⟩ = some ⟨10, 20, 10, 20⟩ ∧
    (masked 10 20 10 20).clipRect ⟨15, 25, 5, 15⟩ = some ⟨15, 20, 10, 15⟩ ∧
    (masked 10 20 10 20).clipRect ⟨0, 9, 0, 9⟩ = none ∧
    (masked 10 20 10 20).clipRect ⟨0, 10, 0, 10⟩ = some ⟨10, 10, 10, 10⟩ ∧
    (masked 10 20 10 20).clipRect ⟨12, 11, 0, 0⟩ = none ∧
    (masked 10 20 10 20).clipRect ⟨-32768, 32767, -32768, 32767⟩ = some ⟨10, 20, 10, 20⟩ ∧
    (masked 10 20 10 20).clipRect ⟨12, 14, 15, 13⟩ = none := by decide

/-- 95 2.2: InMask with the mask (10, 20, 10, 20). -/
theorem test_in_mask :
    (masked 10 20 10 20).inMask 10 10 = true ∧ (masked 10 20 10 20).inMask 20 20 = true ∧
    (masked 10 20 10 20).inMask 9 10 = false ∧ (masked 10 20 10 20).inMask 21 20 = false ∧
    (masked 10 20 10 20).inMask 15 21 = false ∧ (masked 10 20 10 20).inMask (-1) 15 = false := by decide

/-- V-BUS-8: the window FSM started with (5, 5, 7, 7), supplier 0x0001. -/
theorem test_window_fsm :
    ((WindowFsm.start ⟨5, 5, 7, 7⟩ [0x0001]).run tc0 15).1 = tx 5 5 7 7 [0x0001] ∧
    (((WindowFsm.start ⟨5, 5, 7, 7⟩ [0x0001]).run tc0 15).2.state = .idle ∧
      ((WindowFsm.start ⟨5, 5, 7, 7⟩ [0x0001]).run tc0 15).2.cnt = 0) := by decide

/-- 20 R48: the pixels of `TX(238, 239, 0, 1)` in row-major order. -/
theorem test_pixels :
    pixels tc0 (tx 238 239 0 1 [1, 2, 3, 4]) = [⟨238, 0, 1⟩, ⟨239, 0, 2⟩, ⟨238, 1, 3⟩, ⟨239, 1, 4⟩] ∧
    finalColour [⟨1, 1, 5⟩, ⟨1, 1, 6⟩] 1 1 = some 6 := by decide

/-- 30 R60, 10_state R28: a busy block emits the head of Q and holds the presented word; the last event makes it idle. -/
theorem test_drain :
    ({ s0 with busy := true, queue := [.sel, .rel], host := [.issue 0] }.nextAction, { s0 with
      busy := true, queue := [.sel, .rel], host := [.issue 0] }.drain.host) = (.drain, [.issue 0]) ∧
    ({ s0 with busy := true, queue := [.sel, .rel] }.drain.queue, { s0 with
      busy := true, queue := [.sel, .rel] }.drain.busy) = ([.rel], true) ∧
    ({ s0 with busy := true, queue := [.rel] }.drain.queue, { s0 with busy := true, queue := [.rel] }.drain.busy) =
      ([], false) := by decide

/-- A block in the middle of a window transaction, with a font, to which `rst` is asserted. -/
def midReset : State :=
  { tf1 9 9 with
    busy := true
    queue := [.rel]
    lines := { sel := true, dc := true, rstn := true }
    host := [.rst] }

/-- 70 R186, R187: `rst` in mid-operation. -/
theorem test_block_reset :
    midReset.nextAction = .blockReset ∧ midReset.blockReset.busy = false ∧ midReset.blockReset.queue = [] ∧
    midReset.blockReset.lines = { sel := false, dc := true, rstn := true } ∧ midReset.blockReset.fontValid = false ∧
    midReset.blockReset.fw = 0 ∧ curOf midReset.blockReset = [0, 0] ∧ maskOf midReset.blockReset = [0, 239, 0, 319] := by
  decide

/-- The word presented by `withFetchWord` runs as the first operation after reset: GETFW responds 0 (10_state R20). -/
theorem test_first_after_reset :
    (match step (State.reset.withFetchWord 104 0x54000000000000000000000000) with
      | .next t => some (t.responded, t.busy)
      | _ => none) = some ([0], true) := by decide

/-! ### Witnesses: the hypotheses of each statement are met, clause by clause, at the ends of their ranges -/

/-- A block in the middle of an operation, with three events to go. -/
def midOperation : State := { s0 with busy := true, queue := [.sel, .cmd 0x29, .rel], respPending := true }

/-- A block to which a word is presented. -/
def presented (w : CmdWord) : State := { s0 with host := [.issue w] }

/-- S0 with a mask smaller than the screen. -/
def small : State := masked 10 20 10 20

theorem witness_DecodeOfEncode :
    (Instr.line (-32768) 32767 0 (-1) 0xFFFF).wellFormed = true ∧ (Instr.locate 0 65535).wellFormed = true := by decide

theorem witness_EncodeOfDecode :
    decode 0x02FFFF00000000000000000000 = .instr (.setorient 65535) := by decide

theorem witness_UnusedBitsHaveNoEffect :
    (0x53FF41DEADBEEFCAFE12345678 &&& usedBits (fieldOpc 0x53FF41DEADBEEFCAFE12345678) : CmdWord) =
      0x53004100000000000000000000 &&& usedBits (fieldOpc 0x53004100000000000000000000) := by decide

theorem witness_ReservedOpcodeIsSilentNoOp :
    (presented 0).busy = false ∧ (presented 0).queue = [] ∧ (presented 0).host = [.issue 0] ∧
    decode 0 = .reserved 0x00 ∧ decode 0x06000000000000000000000000 = .reserved 0x06 ∧
    decode 0x56000000000000000000000000 = .reserved 0x56 ∧ decode 0xFFFFFFFFFFFFFFFFFFFFFFFFFF = .reserved 0xFF := by
  decide

theorem witness_StepRunsDecodedInstruction :
    (presented 0x03000000000000000000000000).busy = false ∧
    (presented 0x03000000000000000000000000).host = .issue 0x03000000000000000000000000 :: [] ∧
    decode 0x03000000000000000000000000 = .instr .getw := by decide

theorem witness_BusyBlockIgnoresCommandPort : midOperation.busy = true := by decide

theorem witness_QueueDrainsInOrder :
    (midOperation.busy = true ∧ hostSteady midOperation = true ∧ midOperation.queue.length = 3) ∧
    ({ midOperation with queue := [], host := [.issue 0] } : State).busy = true ∧
    hostSteady { midOperation with queue := [], host := [.issue 0] } = true := by decide

theorem witness_ProgramRunsAsBigSteps :
    s0.busy = false ∧ s0.queue = [] ∧ (presented 0x03000000000000000000000000).queue = [] ∧
    (presented 0x03000000000000000000000000).host = [0x03000000000000000000000000].map HostMove.issue := by decide

theorem witness_RespValidIsOnePulse :
    ((presented 0x54000000000000000000000000).busy = false ∧ (presented 0x54000000000000000000000000).queue = [] ∧
      decode 0x54000000000000000000000000 = .instr .getfw ∧ Reg.resp ∈ writes .getfw) ∧
    (Reg.resp ∉ writes (.moveto 1 2) ∧ exec (.moveto 1 2) s0 = .next (s0.setPen 1 2)) := ⟨by decide, by decide, rfl⟩

theorem witness_BlockResetValues : midReset.host = .rst :: [] ∧ midReset.busy = true := by decide

theorem witness_StepKeepsInvariant : inv s0 = true ∧ step s0 = .next s0.quiet := ⟨by decide, rfl⟩

theorem witness_StepKeepsInvariant_busy : inv midOperation = true ∧ step midOperation = .next midOperation.drain := ⟨by decide, rfl⟩

theorem witness_StepKeepsTrafficGood :
    (inv midOperation = true ∧ trafficGood midOperation = true ∧ (midOperation.rstAsserted = true → midOperation.busy = false)) ∧
    step midOperation = .next midOperation.drain := ⟨by decide, rfl⟩

theorem witness_OperationTraceIsWellFormed :
    (maskInv small = true ∧ small.queue = []) ∧
    exec (.rectfill 0 30 0 30 7) small = .next (small.rectfillBody ⟨0, 30, 0, 30⟩ 7) := ⟨by decide, rfl⟩

theorem witness_OperationFrame : exec (.putchar 0x41) (tf1 0 0) = .next ((tf1 0 0).putcharBody 0x41) := rfl

theorem witness_UnreadRegistersDoNotMatter :
    (Reg.mask ∉ reads (.putchar 0x41) ∧ Reg.mask ∉ writes (.putchar 0x41)) ∧
    (Reg.pen ∉ reads (.rectfill 0 1 2 3 4) ∧ Reg.pen ∉ writes (.rectfill 0 1 2 3 4)) ∧
    (Reg.cur ∉ reads (.lineto 1 2 3) ∧ Reg.cur ∉ writes (.lineto 1 2 3)) ∧
    (Reg.gcolor ∉ reads .init ∧ Reg.gcolor ∉ writes .init) ∧
    exec (.putchar 0x41) (tf1 0 0) = .next ((tf1 0 0).putcharBody 0x41) := 
  ⟨by decide, by decide, by decide, by decide, rfl⟩

theorem witness_PixelsStayInside :
    (maskInv small = true ∧ small.queue = [] ∧ (∀ ch, Instr.line 0 0 9 9 7 ≠ .putchar ch) ∧
      Instr.line 0 0 9 9 7 ≠ .init) ∧
    exec (.line 0 0 9 9 7) small = .next ((small.drawLine 0 0 9 9 7).setPen 9 9) :=
  ⟨⟨by decide, by decide, by simp, by simp⟩, rfl⟩

theorem witness_WorkIsBounded :
    isS16 (-32768) = true ∧ isS16 32767 = true ∧ maskInv small = true ∧
    small.clipRect ⟨20, 30, 20, 30⟩ = some ⟨20, 20, 20, 20⟩ := by decide

theorem witness_InMaskIsMaskMembership :
    maskInv small = true ∧ small.inMask 10 10 = true ∧ small.inMask 20 20 = true := by decide

theorem witness_ClipRectIsIntersection :
    maskInv small = true ∧ small.clipRect ⟨0, 10, 0, 10⟩ = some ⟨10, 10, 10, 10⟩ ∧
    small.clipRect ⟨0, 9, 0, 9⟩ = none ∧ small.clipRect ⟨12, 11, 12, 12⟩ = none := by decide

/-- The clauses of SETMASK meet at the edge of the screen: 239 is inside, 240 is not. -/
theorem witness_SetmaskRule :
    ((0 : Int) ≤ 0 ∧ (0 : Int) ≤ 239 ∧ 239 ≤ s0.w - 1 ∧ (0 : Int) ≤ 0 ∧ (0 : Int) ≤ 319 ∧ 319 ≤ s0.h - 1) ∧
    ¬ ((0 : Int) ≤ 0 ∧ (0 : Int) ≤ 240 ∧ 240 ≤ s0.w - 1 ∧ (0 : Int) ≤ 0 ∧ (0 : Int) ≤ 319 ∧ 319 ≤ s0.h - 1) ∧
    ¬ ((0 : Int) ≤ -1 ∧ (-1 : Int) ≤ 239 ∧ 239 ≤ s0.w - 1 ∧ (0 : Int) ≤ 0 ∧ (0 : Int) ≤ 319 ∧ 319 ≤ s0.h - 1) := by decide

theorem witness_WindowTransactionShape :
    (0 : Half) = wrap16 0 ∧ (0x00EF : Half) = wrap16 239 ∧ (0x013F : Half) = wrap16 319 := by decide

theorem witness_PixelsOfWindowTransaction :
    (0 : Int) ≤ 65534 ∧ (65534 : Int) ≤ 65535 ∧ (65535 : Int) ≤ 65535 ∧
    ([1, 2] : List Colour).length = (⟨65534, 65535, 65535, 65535⟩ : Rect).count := by decide

theorem witness_WindowFsmEmitsTransaction :
    ([1] : List Colour).length = (⟨5, 5, 7, 7⟩ : Rect).count ∧ 1 ≤ (⟨5, 5, 7, 7⟩ : Rect).count := by decide

theorem witness_PinsFollowEvents : ({ sel := true, dc := true, rstn := false } : Lines).dc = true := by decide

/-- One common pixel, at the corner of the mask; and none. -/
theorem witness_RectfillRule :
    maskInv small = true ∧
    (∃ x y : Int, (0 ≤ x ∧ x ≤ 10 ∧ 0 ≤ y ∧ y ≤ 10) ∧ small.mask.has x y = true) ∧
    ¬ (∃ x y : Int, (0 ≤ x ∧ x ≤ 9 ∧ 0 ≤ y ∧ y ≤ 9) ∧ small.mask.has x y = true) := by
  refine ⟨by decide, ⟨10, 10, by omega, by decide⟩, ?_⟩
  rintro ⟨x, y, h, hm⟩
  have hl : small.mask.l = 10 := by decide
  simp only [Rect.has, Bool.and_eq_true, decide_eq_true_eq, hl] at hm
  omega

theorem witness_RectRule : ((3 : Int) > 2 ∨ (0 : Int) > 5) ∧ (5 : Int) ≤ 5 ∧ (7 : Int) ≤ 7 := by decide

theorem witness_BltRule :
    maskInv small = true ∧
    (∃ x y : Int, (20 ≤ x ∧ x ≤ 30 ∧ 20 ≤ y ∧ y ≤ 30) ∧ small.mask.has x y = true) ∧
    ¬ (∃ x y : Int, (21 ≤ x ∧ x ≤ 30 ∧ 20 ≤ y ∧ y ≤ 30) ∧ small.mask.has x y = true) := by
  refine ⟨by decide, ⟨20, 20, by omega, by decide⟩, ?_⟩
  rintro ⟨x, y, h, hm⟩
  have hr : small.mask.r = 20 := by decide
  simp only [Rect.has, Bool.and_eq_true, decide_eq_true_eq, hr] at hm
  omega

theorem witness_BltPointerDescription :
    small.clipRect ⟨9, 12, 5, 11⟩ = some ⟨10, 12, 10, 11⟩ ∧ (1 : Int) = 10 - 9 ∧ (5 : Int) = 10 - 5 ∧
    (4 : Int) = 12 - 9 + 1 := by decide

theorem witness_RectangleOperationsPixelSet : maskInv small = true ∧ small.queue = [] := by decide

/-- Both orders of the axes, the tie belonging to x. -/
theorem witness_LineStepsClosedForm :
    ((3 : Int) - 0).natAbs ≤ ((-3 : Int) - 0).natAbs ∧ ((1 : Int) - 0).natAbs < ((6 : Int) - 0).natAbs := by decide

theorem witness_LineEndsOnMajorCoordinate :
    (0 : Nat) = max ((7 : Int) - 7).natAbs ((7 : Int) - 7).natAbs ∧
    (5 : Nat) = max ((1 : Int) - 0).natAbs ((5 : Int) - 0).natAbs ∧
    (((5 : Int) - 0).natAbs ≤ ((5 : Int) - 0).natAbs ∧ ((1 : Int) - 0).natAbs < ((5 : Int) - 0).natAbs) := by decide

/-- The longest exact line and the longest line of all (V-DDA-2). -/
theorem witness_LineEndPointExact :
    (32768 : Nat) = max ((0 : Int) - -32768).natAbs ((5 : Int) - 0).natAbs ∧ 32768 ≤ 32768 ∧
    (65535 : Nat) = max ((32767 : Int) - -32768).natAbs ((16385 : Int) - -32768).natAbs ∧ 65535 ≤ 65535 := by decide

theorem witness_LineTieIsDiagonal : ((3 : Int) - 0).natAbs = ((-3 : Int) - 0).natAbs := by decide

theorem witness_LineStepsAreAdjacent :
    (lineSteps 0 0 1 5)[0]? = some (0, 0) ∧ (lineSteps 0 0 1 5)[0 + 1]? = some (0, 1) ∧
    ((1 : Int) - 0).natAbs < ((5 : Int) - 0).natAbs ∧
    (lineSteps 0 0 5 1)[4]? = some (4, 1) ∧ (lineSteps 0 0 5 1)[4 + 1]? = some (5, 1) ∧
    ((1 : Int) - 0).natAbs ≤ ((5 : Int) - 0).natAbs := by decide

theorem witness_LineAccumulatorFits34Bits :
    isS16 (-32768) = true ∧ isS16 32767 = true ∧ ((32767 : Int) - -32768).natAbs ≤ 65535 ∧ 65535 ≤ 65535 := by decide

/-- The ranges of the operands of MOVETO, LINETO and LINE, at their ends. -/
theorem witness_MovetoRule : isS16 (-32768) = true ∧ isS16 32767 = true := by decide
theorem witness_LinetoRule : isS16 32767 = true ∧ isS16 (-32768) = true := by decide
theorem witness_LineRule :
    isS16 (-32768) = true ∧ isS16 32767 = true ∧ isS16 0 = true ∧ isS16 (-1) = true := by decide

theorem witness_LineBusTraffic : maskInv small = true ∧ small.queue = [] := by decide

/-- A table with the signature, and one that differs in the sixth byte only (S6 (c)). -/
theorem witness_FontfaceRule :
    (∀ i : Fin 6, s0.fontAt ((0x1000 : Addr).toNat + i.val) = s0.cfg.fontSig[i.val]) ∧
    ¬ (∀ i : Fin 6, s0.fontAt ((0x4000 : Addr).toNat + i.val) = s0.cfg.fontSig[i.val]) := by decide

/-- Two codes that are no control character: the tab, and the code after form feed's neighbour `\r`. -/
theorem witness_ControlCharacters :
    (0x09#8 ∉ [0x0A#8, 0x0D#8, 0x08#8, 0x0C#8]) ∧ 0x0E#8 ∉ [0x0A#8, 0x0D#8, 0x08#8, 0x0C#8] := by decide

/-- Each of the seven conditions at its boundary value. -/
theorem witness_PrintableDrops :
    (0x41#8 ∉ [0x0A#8, 0x0D#8, 0x08#8, 0x0C#8]) ∧ s0.fontValid = false ∧ (tf1 0xFFFF 0).curX.toInt < 0 ∧
    (tf1 240 0).w ≤ (tf1 240 0).curX.toInt ∧ (tf1 0 0xFFFF).curY.toInt < 0 ∧ (tf1 0 320).h ≤ (tf1 0 320).curY.toInt ∧
    ({ tf1 0 0 with fw := 0 } : State).fw = 0 ∧ ({ tf1 0 0 with fh := 0 } : State).fh = 0 := by decide

/-- The cursor at the last pixel of the screen: the glyph is cut to one pixel. -/
theorem witness_PrintableDrawsGlyph :
    ((0x41#8 ∉ [0x0A#8, 0x0D#8, 0x08#8, 0x0C#8]) ∧ (tf1 239 319).fontValid = true ∧ 0 ≤ (tf1 239 319).curX.toInt ∧
      (tf1 239 319).curX.toInt < (tf1 239 319).w ∧ 0 ≤ (tf1 239 319).curY.toInt ∧
      (tf1 239 319).curY.toInt < (tf1 239 319).h) ∧
    ((tf1 239 319).fw ≠ 0 ∧ (tf1 239 319).fh ≠ 0 ∧
      ((1 : Nat) : Int) = min ((tf1 239 319).fw.toNat : Int) ((tf1 239 319).w - (tf1 239 319).curX.toInt) ∧
      ((1 : Nat) : Int) = min ((tf1 239 319).fh.toNat : Int) ((tf1 239 319).h - (tf1 239 319).curY.toInt) ∧
      2 = ((tf1 239 319).fw.toNat + 7) / 8) := by decide

theorem witness_TextIgnoresMask : exec (.putchar 0x0C) s0 = .next (s0.putcharBody 0x0C) := rfl

theorem witness_ResetPulseDelays : s0.queue = [] := by decide

/-- The clauses of SETORIENT meet between 3 and 4. -/
theorem witness_SetorientRule : 4 > 3 ∧ 3 ≤ 3 := by decide

/-- A word for the decoding clause of each rule: the OPC field alone is given. -/
theorem witness_opcode_clauses :
    [0x01000000000000000000000000, 0x02000100000000000000000000, 0x03000000000000000000000000,
      0x04000000000000000000000000, 0x05001200340056000000000000, 0x10000A0064001400C800000000,
      0x20000001400000000000000000, 0x21006400000000000000000000, 0x30000A0014001E00280000F800,
      0x310000000200000002000007E0, 0x320009000C0005000600000200, 0x40FFFB01900000000000000000,
      0x4100040000000000000000FFFF, 0x42FFFB0003000C00030000FFFF, 0x50000000000000000000001000,
      0x5100000000000000000000FFFF, 0x52000200050000000000000000, 0x53004100000000000000000000,
      0x54000000000000000000000000, 0x55000000000000000000000000].map (fun w : CmdWord => w.extractLsb' 96 8) =
    [0x01, 0x02, 0x03, 0x04, 0x05, 0x10, 0x20, 0x21, 0x30, 0x31, 0x32, 0x40, 0x41, 0x42, 0x50, 0x51, 0x52, 0x53, 0x54,
      0x55] := by decide

end Sys2Proof.Tests
end

/-! ## What an operation does: events that join Q, then a write of its registers -/

namespace Sys2Proof.Machine

open Sys2Proof.Safety

/-! ### Windows inside a region -/

/-- The rectangle is not inverted and lies inside the region `R`. -/
def Rect.Within (q R : Rect) : Prop :=
  R.l ≤ q.l ∧ q.l ≤ q.r ∧ q.r ≤ R.r ∧ R.t ≤ q.t ∧ q.t ≤ q.b ∧ q.b ≤ R.b

theorem Rect.Within.trans {q R S : Rect} (h : q.Within R) (h' : R.Within S) : q.Within S := by
  unfold Rect.Within at *
  omega

theorem Rect.Within.has {q R : Rect} (h : q.Within R) {x y : Int} (hq : q.has x y = true) : R.has x y = true := by
  unfold Rect.Within at h
  rw [Rect.has_iff] at *
  omega

/-- The mask invariant (10_state R14) in terms of rectangles. -/
theorem maskInv_iff {s : State} : maskInv s = true ↔ s.mask.Within s.screen := by
  simp [maskInv, Rect.Within, State.mask, State.screen, and_assoc]

theorem State.screen_within_self (s : State) : s.screen.Within s.screen := by
  have hw := s.w_bounds
  have hh := s.h_bounds
  simp only [Rect.Within, State.screen]
  omega

/-- A mask written from a rectangle on the screen holds that rectangle: no coordinate wraps. -/
theorem State.setMask_mask {s : State} {q : Rect} (h : q.Within s.screen) : (s.setMask q).mask = q := by
  have hw := s.w_bounds
  have hh := s.h_bounds
  simp only [Rect.Within, State.screen] at h
  simp only [State.mask, State.setMask]
  rw [toInt_wrap16 (by omega) (by omega), toInt_wrap16 (by omega) (by omega),
    toInt_wrap16 (by omega) (by omega), toInt_wrap16 (by omega) (by omega)]

/-- ClipRect answers a rectangle inside the mask (40 R83). -/
theorem State.clipRect_within {s : State} {q w : Rect} (hm : s.mask.Within s.screen) (h : s.clipRect q = some w) :
    w.Within s.mask := by
  obtain ⟨hq, hmeet, rfl⟩ := State.clipRect_some h
  unfold Rect.Within at *
  dsimp only
  omega

/-! ### The register writes -/

/-- What no operation writes, and Q, which its register writes leave alone (10_state R34). -/
structure Surroundings where
  cfg : Cfg
  font : List Host.Cell
  src : Mem 16
  lines : Lines
  busy : Bool
  respValid : Bool
  latch : CmdWord
  emitted : List BusEvent
  host : List HostMove
  draws : Nat
  queue : List BusEvent

/-- The surroundings in a state. -/
def State.surroundings (s : State) : Surroundings where
  cfg := s.cfg
  font := s.font
  src := s.src
  lines := s.lines
  busy := s.busy
  respValid := s.respValid
  latch := s.latch
  emitted := s.emitted
  host := s.host
  draws := s.draws
  queue := s.queue

/-- The register writes of the operations, whose events have joined Q before: what the access table of 10_state R34 lets
an operation write, with the values the operations give. -/
inductive RegisterEffect (s : State) : State → Prop where
  | none : RegisterEffect s s
  | respond (v : Half) : RegisterEffect s (s.respond v)
  | pen (x y : Int) : RegisterEffect s (s.setPen x y)
  | cursor (x y : Half) : RegisterEffect s { s with curX := x, curY := y }
  | colour (g : BitVec 32) : RegisterEffect s { s with gcolor := g }
  | mask (q : Rect) : q.Within s.screen → RegisterEffect s (s.setMask q)
  | font (base : Addr) : RegisterEffect s (s.fontfaceBody base)
  | orient (o : BitVec 2) : RegisterEffect s (s.orientTo o).home
  | init (base : Addr) : RegisterEffect s ((s.orientTo 0).fontfaceBody base).home

@[simp] theorem State.fontfaceBody_surroundings (s : State) (base : Addr) :
    (s.fontfaceBody base).surroundings = s.surroundings := by
  obtain ⟨-, h⟩ | ⟨-, h⟩ := s.fontfaceBody_cases base
  · rw [h]
  · rw [h]; rfl

@[simp] theorem State.fontfaceBody_mask (s : State) (base : Addr) : (s.fontfaceBody base).mask = s.mask := by
  obtain ⟨-, h⟩ | ⟨-, h⟩ := s.fontfaceBody_cases base
  · rw [h]
  · rw [h]; rfl

@[simp] theorem State.fontfaceBody_screen (s : State) (base : Addr) : (s.fontfaceBody base).screen = s.screen := by
  obtain ⟨-, h⟩ | ⟨-, h⟩ := s.fontfaceBody_cases base
  · rw [h]
  · rw [h]; rfl

@[simp] theorem State.home_surroundings (s : State) : s.home.surroundings = s.surroundings := rfl
@[simp] theorem State.home_mask (s : State) : s.home.mask = s.mask := rfl
@[simp] theorem State.home_screen (s : State) : s.home.screen = s.screen := rfl

theorem State.emit_orientTo (s : State) (es : List BusEvent) (o : BitVec 2) :
    (s.emit es).orientTo o = (s.orientTo o).emit es := rfl

theorem RegisterEffect.surroundings {s t : State} (h : RegisterEffect s t) : t.surroundings = s.surroundings := by
  cases h with
  | none | respond | pen | cursor | colour | mask | orient => rfl
  | font base => exact s.fontfaceBody_surroundings base
  | init base => exact (s.orientTo 0).fontfaceBody_surroundings base

theorem State.orientTo_mask_within (s : State) (o : BitVec 2) : (s.orientTo o).mask.Within (s.orientTo o).screen := by
  rw [State.orientTo_mask_eq_screen]
  exact State.screen_within_self _

/-- Every operation keeps the mask on the logical screen (10_state R14). -/
theorem RegisterEffect.keeps_mask {s t : State} (h : RegisterEffect s t) (hm : s.mask.Within s.screen) :
    t.mask.Within t.screen := by
  cases h with
  | none | respond | pen | cursor | colour => exact hm
  | mask q hq =>
    rw [State.setMask_mask hq]
    exact hq
  | font base => simpa using hm
  | orient o => exact s.orientTo_mask_within o
  | init base => simpa using s.orientTo_mask_within 0

/-- FONTFACE leaves the registers of a font whose table stands at FONT_BASE, or drops (44 R132). -/
theorem State.fontfaceBody_keeps_fontInv {s : State} (base : Addr) (h : fontInv s = true) :
    fontInv (s.fontfaceBody base) = true := by
  obtain ⟨-, e⟩ | ⟨hsig, e⟩ := s.fontfaceBody_cases base
  · rwa [e]
  · rw [e]
    simp only [fontInv, if_true, Bool.and_eq_true, beq_iff_eq]
    exact ⟨⟨hsig, rfl⟩, rfl⟩

/-- Every operation keeps the font registers true to FONT, or zero without a font (10_state R20, 44 R132). -/
theorem RegisterEffect.keeps_fontInv {s t : State} (h : RegisterEffect s t) (hf : fontInv s = true) :
    fontInv t = true := by
  cases h with
  | none | respond | pen | cursor | colour | mask | orient => exact hf
  | font base => exact State.fontfaceBody_keeps_fontInv base hf
  | init base => exact State.fontfaceBody_keeps_fontInv (s := s.orientTo 0) base hf

/-! ### Whole transactions -/

/-- The events are whole transactions, the reset pulse and waits, one after the other; every window is one of `P` and has
its exact number of pixel words (41 R97, R98). -/
inductive Transactions (c : Cfg) (P : Rect → Prop) : List BusEvent → Prop where
  | nil : Transactions c P []
  | append {es fs : List BusEvent} : Transactions c P es → Transactions c P fs → Transactions c P (es ++ fs)
  | window {q : Rect} {ws : List Colour} : P q → ws.length = q.count → Transactions c P (windowTx c q ws)
  | command (b : Byte) (ds : List Byte) : Transactions c P (cmdx b ds)
  | pulse : Transactions c P (resetPulse c)
  | wait (n : Nat) : Transactions c P [.wait n]

theorem Transactions.mono {c : Cfg} {P Q : Rect → Prop} {es : List BusEvent} (h : Transactions c P es)
    (hPQ : ∀ q, P q → Q q) : Transactions c Q es := by
  induction h with
  | nil => exact .nil
  | append _ _ ih1 ih2 => exact .append ih1 ih2
  | window hq hn => exact .window (hPQ _ hq) hn
  | command b ds => exact .command b ds
  | pulse => exact .pulse
  | wait n => exact .wait n

theorem Transactions.flatMap {α : Type} {c : Cfg} {P : Rect → Prop} {f : α → List BusEvent} {l : List α}
    (h : ∀ a ∈ l, Transactions c P (f a)) : Transactions c P (l.flatMap f) := by
  induction l with
  | nil => exact .nil
  | cons a l ih =>
    rw [List.flatMap_cons]
    exact .append (h a List.mem_cons_self) (ih fun b hb => h b (List.mem_cons_of_mem a hb))

theorem Transactions.fill {c : Cfg} {P : Rect → Prop} {q : Rect} (h : P q) (colour : Colour) :
    Transactions c P (fill c q colour) := .window h List.length_replicate

/-- Q's transactions bring the lines back to their idle levels (41 R93, 10_state R22). -/
theorem Transactions.afterAll {c : Cfg} {P : Rect → Prop} {es : List BusEvent} (h : Transactions c P es) :
    Lines.idle.afterAll es = Lines.idle := by
  induction h with
  | nil => rfl
  | append _ _ ih1 ih2 => rw [Lines.afterAll_append, ih1, ih2]
  | window => exact Lines.afterAll_windowTx ..
  | command b ds => exact Lines.afterAll_cmdx b ds
  | pulse => rfl
  | wait n => rfl

/-! ### The transactions of the operations -/

/-- RECTFILL's window is the clipped rectangle (42 R112). -/
theorem State.clippedFill_transactions {s : State} (hm : s.mask.Within s.screen) (q : Rect) (colour : Colour) :
    Transactions s.cfg (·.Within s.mask) ((s.clipRect q).elim [] fun w => fill s.cfg w colour) := by
  cases h : s.clipRect q with
  | none => exact .nil
  | some w => exact .fill (P := (·.Within s.mask)) (State.clipRect_within hm h) colour

/-- Each plotted point of a line is a window of its own, in the mask (43 R121, R123). -/
theorem State.lineEvents_transactions (s : State) (x1 y1 x2 y2 : Int) (colour : Colour) :
    Transactions s.cfg (·.Within s.mask) (s.lineEvents x1 y1 x2 y2 colour) := by
  refine .flatMap fun p hp => .window ?_ ?_
  · have hin := State.inMask_iff.mp (List.mem_filter.mp hp).2
    simp only [Rect.Within]
    omega
  · simp [Rect.count]

theorem tableEvents_transactions (c : Cfg) (P : Rect → Prop) (table : List InitEntry) :
    Transactions c P (tableEvents table) := by
  refine .flatMap fun e _ => .append (.command _ _) ?_
  split
  · exact .wait _
  · exact .nil

/-- The glyph's window lies on the screen, because the cursor does (44 R139, R141). -/
theorem State.glyphWindow_within {s : State} (hc : s.cursorOnScreen = true) (hw : s.glyphW ≠ 0) (hh : s.glyphH ≠ 0) :
    s.glyphWindow.Within s.screen := by
  rw [State.cursorOnScreen, Rect.has_iff] at hc
  simp only [State.glyphW, State.glyphH] at hw hh
  simp only [State.screen] at hc
  simp only [Rect.Within, State.glyphWindow, State.glyphW, State.glyphH, State.screen]
  omega

theorem State.length_glyphWords (s : State) (g : Int) :
    (s.glyphWords g s.glyphW s.glyphH).length = s.glyphWindow.count := by
  have width (a : Int) (n : Nat) : (a + n - 1 - a + 1).toNat = n := by omega
  simp [State.glyphWords, Rect.count, State.glyphWindow, List.length_flatMap, width, Nat.mul_comm]

/-! ### The effect of an operation -/

/-- The windows the operation `i` may open on its way from `s` to `t`: on the logical screen, and in the mask unless it is
PUTCHAR or INIT (40 R82, 44 R141). -/
def Allowed (i : Instr) (s t : State) (q : Rect) : Prop :=
  q.Within t.screen ∧ ((∀ ch, i ≠ .putchar ch) → i ≠ .init → q.Within s.mask)

/-- An operation makes `t` of `s`: whole transactions join Q, then it writes its registers. The windows are the allowed
ones when the mask lies on the screen. -/
def Operates (i : Instr) (s t : State) : Prop :=
  ∃ es, RegisterEffect (s.emit es) t ∧ (s.mask.Within s.screen → Transactions s.cfg (Allowed i s t) es)

/-- An operation without bus events. -/
theorem Operates.silent {i : Instr} {s t : State} (h : RegisterEffect s t) : Operates i s t :=
  ⟨[], by rwa [State.emit_nil], fun _ => .nil⟩

/-- An operation that draws in the mask and does not change the screen. -/
theorem Operates.masked {i : Instr} {s t : State} {es : List BusEvent} (ht : t.screen = s.screen)
    (h : RegisterEffect (s.emit es) t)
    (hes : s.mask.Within s.screen → Transactions s.cfg (·.Within s.mask) es) : Operates i s t :=
  ⟨es, h, fun hm => (hes hm).mono fun _ hq => ⟨ht ▸ hq.trans hm, fun _ _ => hq⟩⟩

/-- A character is drawn wherever the cursor is on the screen. -/
theorem Operates.text {ch : Byte} {s t : State} {es : List BusEvent} (ht : t.screen = s.screen)
    (h : RegisterEffect (s.emit es) t) (hes : Transactions s.cfg (·.Within s.screen) es) : Operates (.putchar ch) s t :=
  ⟨es, h, fun _ => hes.mono fun _ hq => ⟨ht ▸ hq, fun hch => absurd rfl (hch ch)⟩⟩

theorem setorientBody_operates (o : Nat) (s : State) : Operates (.setorient o) s (s.setorientBody o) := by
  obtain ⟨-, h⟩ | ⟨-, h⟩ := s.setorientBody_cases o <;> rw [h]
  · exact .silent .none
  · exact ⟨_, .orient _, fun _ => .command _ _⟩

theorem setmaskBody_operates (l r t b : Int) (s : State) : Operates (.setmask l r t b) s (s.setmaskBody l r t b) := by
  obtain h | ⟨hq, h⟩ := s.setmaskBody_cases l r t b <;> rw [h]
  · exact .silent .none
  · refine .silent (.mask _ ?_)
    simp only [Rect.Within, State.screen]
    omega

theorem rectfillBody_operates (i : Instr) (q : Rect) (c : Colour) (s : State) : Operates i s (s.rectfillBody q c) := by
  rw [State.rectfillBody_eq_emit]
  exact .masked rfl .none fun hm => s.clippedFill_transactions hm q c

theorem rectBody_operates (i : Instr) (q : Rect) (c : Colour) (s : State) : Operates i s (s.rectBody q c) := by
  rw [State.rectBody_eq_emit]
  refine .masked rfl .none fun hm => ?_
  split
  · exact .nil
  · exact .flatMap fun e _ => s.clippedFill_transactions hm e c

theorem bltBody_operates (i : Instr) (q : Rect) (base : Addr) (s : State) : Operates i s (s.bltBody q base) := by
  obtain ⟨-, h⟩ | ⟨w, hw, h⟩ := s.bltBody_cases q base <;> rw [h]
  · exact .silent .none
  · refine .masked rfl .none fun hm => .window (State.clipRect_within hm hw) ?_
    rw [List.length_map, Rect.length_points]

theorem printGlyph_operates (ch : Byte) (s : State) : Operates (.putchar ch) s (s.printGlyph ch) := by
  obtain h | ⟨⟨-, hc, hw, hh⟩, h⟩ := s.printGlyph_cases ch <;> rw [h]
  · exact .silent .none
  · exact .text rfl (.cursor _ s.curY) (.window (State.glyphWindow_within hc hw hh) (s.length_glyphWords _))

theorem putcharBody_operates (ch : Byte) (s : State) : Operates (.putchar ch) s (s.putcharBody ch) := by
  unfold State.putcharBody
  split_ifs
  · exact .silent (.cursor _ _)
  · exact .silent (.cursor _ s.curY)
  · exact .silent (.cursor _ s.curY)
  · exact .text rfl (.cursor _ _) (.fill (P := (·.Within s.screen)) s.screen_within_self _)
  · exact printGlyph_operates ch s

theorem initBody_operates (s : State) : Operates .init s s.initBody := by
  rw [State.initBody_eq, ← State.emit_orientTo]
  refine ⟨_, .init _, fun _ => ?_⟩
  refine .append (.append (.append .pulse (tableEvents_transactions ..)) (.fill ?_ _)) (.command _ _)
  refine ⟨?_, fun _ h => absurd rfl h⟩
  rw [State.home_screen, State.fontfaceBody_screen]
  exact (s.orientTo 0).screen_within_self

/-- What every operation of 30_encoding R62 does. -/
theorem exec_operates {i : Instr} {s t : State} (h : exec i s = .next t) : Operates i s t := by
  cases i <;> cases h
  case init => exact initBody_operates s
  case setorient o => exact setorientBody_operates o s
  case getw | geth | packrgb | getfw | getfh => exact .silent (.respond _)
  case setmask l r t b => exact setmaskBody_operates l r t b s
  case scrolldef x y z =>
    exact ⟨_, .none, fun _ => .command s.cfg.vscrdef [highByte x, lowByte x, highByte y, lowByte y, highByte z, lowByte z]⟩
  case scrollstart x => exact ⟨_, .none, fun _ => .command s.cfg.vscrsadd [highByte x, lowByte x]⟩
  case rectfill => exact rectfillBody_operates ..
  case rect => exact rectBody_operates ..
  case blt => exact bltBody_operates ..
  case moveto x y => exact .silent (.pen x y)
  case lineto x y c => exact .masked rfl (.pen x y) fun _ => s.lineEvents_transactions ..
  case line x1 y1 x2 y2 c => exact .masked rfl (.pen x2 y2) fun _ => s.lineEvents_transactions ..
  case fontface base => exact .silent (.font base)
  case fontcolor g => exact .silent (.colour g)
  case locate col row => exact .silent (.cursor _ _)
  case putchar ch => exact putcharBody_operates ch s

/-- Every operation answers a next state (60 R165). -/
theorem exec_total (i : Instr) (s : State) : ∃ t, exec i s = .next t := by
  cases i <;> exact ⟨_, rfl⟩

/-- An operation leaves its surroundings alone, but for the events that join Q. -/
theorem exec_surroundings {i : Instr} {s t : State} (h : exec i s = .next t) :
    ∃ es, t.surroundings = (s.emit es).surroundings := by
  obtain ⟨es, heff, -⟩ := exec_operates h
  exact ⟨es, heff.surroundings⟩

end Sys2Proof.Machine

/-! ## The step: the invariant of the block (10_state R32), and block reset (R33) -/

namespace Sys2Proof.Machine

open Sys2Proof.Safety

/-- The invariant of the block, part by part. -/
theorem inv_iff {s : State} : inv s = true ↔
    s.mask.Within s.screen ∧ fontInv s = true ∧ s.lines.afterAll s.queue = Lines.idle ∧
      (s.busy = true ∨ s.queue = [] ∧ s.respPending = false) ∧ memInv s = true := by
  simp [inv, maskInv_iff, linesInv, idleInv, and_assoc]

/-! ### Block reset -/

/-- The full-screen mask that block reset writes (10_state R33). -/
theorem State.blockReset_mask (s : State) :
    s.blockReset.mask = { l := 0, r := s.cfg.panelW - 1, t := 0, b := s.cfg.panelH - 1 } := by
  have hw := s.cfg.lastCol.isLt
  have hh := s.cfg.lastRow.isLt
  have toInt_ofNat {n : Nat} (h : n < 32768) : (BitVec.ofNat 16 n).toInt = n := by
    rw [← BitVec.ofInt_natCast]
    exact toInt_wrap16 (by omega) (by omega)
  simp only [State.mask, State.blockReset, Cfg.panelW, Cfg.panelH, Nat.add_sub_cancel]
  rw [toInt_ofNat hw, toInt_ofNat hh]
  simp

theorem State.blockReset_screen (s : State) :
    s.blockReset.screen = { l := 0, r := s.cfg.panelW - 1, t := 0, b := s.cfg.panelH - 1 } := by
  simp [State.screen, State.w, State.h, State.blockReset]

/-- After block reset the invariant holds, as far as it speaks of the block: FONT and SRC are not the block's. -/
theorem State.blockReset_inv {s : State} (hmem : memInv s = true) : inv s.blockReset = true := by
  refine inv_iff.mpr ⟨?_, rfl, rfl, .inr ⟨rfl, rfl⟩, hmem⟩
  rw [State.blockReset_mask, ← State.blockReset_screen]
  exact State.screen_within_self _

/-- Settles O12: the reset step is `State.blockReset`, and its mask does not wrap. -/
theorem blockResetValues : Obligations.BlockResetValues := by
  intro s rest hhost
  have hstep : step s = .next s.blockReset := by simp [step, State.nextAction, hhost]
  refine ⟨s.blockReset, hstep, rfl, s.blockReset_mask, rfl, rfl, rfl, rfl, rfl, rfl, rfl, rfl, rfl, rfl, rfl, rfl, rfl,
    rfl, fun _ => rfl, fun _ => rfl, ?_⟩
  exact congrArg List.tail hhost

/-- Settles O13: the state after reset is a block reset. -/
theorem resetStateValues : Obligations.ResetStateValues := by
  have hmask := State.blockReset_mask { State.reset with draws := 0 }
  rw [State.reset_eq_blockReset] at hmask
  exact ⟨rfl, hmask, rfl, rfl, rfl, rfl, rfl, rfl, rfl, rfl, rfl, rfl⟩

/-- Settles O14: the state after reset is a block reset, and its traffic is empty. -/
theorem resetMeetsInvariants : Obligations.ResetMeetsInvariants := by
  have hinv := State.blockReset_inv (s := { State.reset with draws := 0 }) rfl
  rw [State.reset_eq_blockReset] at hinv
  exact ⟨hinv, rfl⟩

/-! ### Every step keeps the invariant -/

/-- A quiet step changes only the host's moves and `resp_valid`, which the invariant does not read. -/
theorem State.quiet_inv {s : State} (h : inv s = true) : inv s.quiet = true := h

/-- The lines at the end of Q stay where they are while Q is emitted, and Q is empty at completion. -/
theorem State.drain_inv {s : State} (hbusy : s.busy = true) (h : inv s = true) : inv s.drain = true := by
  obtain ⟨hmask, hfont, hlines, -, hmem⟩ := inv_iff.mp h
  obtain ⟨hq, hd⟩ | ⟨e, hq, hd⟩ | ⟨e, e', rest, hq, hd⟩ := s.drain_cases <;> rw [hd] <;>
    rw [hq] at hlines
  · exact inv_iff.mpr ⟨hmask, hfont, by simpa [hq] using hlines, .inr ⟨hq, rfl⟩, hmem⟩
  · exact inv_iff.mpr ⟨hmask, hfont, hlines, .inr ⟨rfl, rfl⟩, hmem⟩
  · exact inv_iff.mpr ⟨hmask, hfont, hlines, .inl hbusy, hmem⟩

/-- An accepted word makes the block busy. -/
theorem State.accept_inv {s : State} (w : CmdWord) (h : inv s = true) : inv (s.accept w) = true := by
  obtain ⟨hmask, hfont, hlines, -, hmem⟩ := inv_iff.mp h
  exact inv_iff.mpr ⟨hmask, hfont, hlines, .inl rfl, hmem⟩

/-- An operation in progress keeps the invariant: its transactions end with idle lines, and its register writes keep the
mask on the screen and the font registers true to FONT. -/
theorem exec_keeps_inv {i : Instr} {s t : State} (hbusy : s.busy = true) (h : inv s = true)
    (hexec : exec i s = .next t) : inv t = true := by
  obtain ⟨hmask, hfont, hlines, -, hmem⟩ := inv_iff.mp h
  obtain ⟨es, heff, htrans⟩ := exec_operates hexec
  have hsur := heff.surroundings
  have hfontCells : t.font = s.font := congrArg Surroundings.font hsur
  have hsrc : t.src = s.src := congrArg Surroundings.src hsur
  have hqueue : t.queue = s.queue ++ es := congrArg Surroundings.queue hsur
  have htlines : t.lines = s.lines := congrArg Surroundings.lines hsur
  have htbusy : t.busy = s.busy := congrArg Surroundings.busy hsur
  refine inv_iff.mpr ⟨heff.keeps_mask hmask, heff.keeps_fontInv hfont, ?_, .inl (htbusy.trans hbusy), ?_⟩
  · rw [htlines, hqueue, Lines.afterAll_append, hlines, (htrans hmask).afterAll]
  · rwa [memInv, hfontCells, hsrc]

/-- Settles O15, by the cases of a step. -/
theorem stepKeepsInvariant : Obligations.StepKeepsInvariant := by
  intro s t h hstep
  obtain ⟨-, rfl⟩ | ⟨ha, rfl⟩ | ⟨-, rfl⟩ | ⟨w, o, -, -, rfl⟩ | ⟨w, i, -, -, hexec⟩ := step_cases hstep
  · obtain ⟨-, -, -, -, hmem⟩ := inv_iff.mp h
    exact State.blockReset_inv hmem
  · exact State.drain_inv (State.nextAction_drain ha) h
  · exact State.quiet_inv h
  · exact State.accept_inv w h
  · exact exec_keeps_inv rfl (State.accept_inv w h) hexec

end Sys2Proof.Machine

/-! ## Small steps and big steps (10_state R28) -/

namespace Sys2Proof.Machine

open Sys2Proof.Safety

/-- Running on after a run. -/
theorem run_add {M : Host.Core} {s t : M.State} {k : Nat} (m : Nat) (h : M.run k s = .next t) :
    M.run (k + m) s = M.run m t := by
  induction k generalizing s with
  | zero =>
    cases h
    rw [Nat.zero_add]
  | succ k ih =>
    rw [Nat.succ_add]
    simp only [Host.Core.run] at h ⊢
    cases hs : M.step s with
    | next u =>
      rw [hs] at h
      exact ih h
    | fault r => rw [hs] at h; cases h
    | refused r => rw [hs] at h; cases h

/-- A busy block whose host holds at most a word to present drains Q, and the host's moves stay. -/
theorem step_drain {s : State} (hbusy : s.busy = true) (hhost : hostSteady s = true) :
    step s = .next s.drain ∧ waitMoves s.host = s.host := by
  unfold hostSteady at hhost
  split at hhost
  · next h => simp [step, State.nextAction, waitMoves, h, hbusy]
  · next h => simp [step, State.nextAction, waitMoves, h, hbusy]
  · cases hhost

/-- The last step of an operation, with at most one event left in Q, settles it. -/
theorem run_last {s : State} (hbusy : s.busy = true) (hhost : hostSteady s = true) (hq : s.queue.length ≤ 1) :
    Host.Core.run Sys2Proof.core 1 s = .next s.settled := by
  obtain ⟨hstep, hwait⟩ := step_drain hbusy hhost
  have hdrain : s.drain = s.settled := by
    obtain ⟨h, hd⟩ | ⟨e, h, hd⟩ | ⟨e, e', rest, h, -⟩ := s.drain_cases
    · simp [hd, State.settled, State.complete, State.quiet, h, hwait, Lines.afterAll]
    · simp [hd, State.settled, State.complete, State.quiet, State.emitNow, h, hwait, Lines.afterAll]
    · simp [h] at hq
  exact (run_next 0 hstep).trans (congrArg _ hdrain)

/-- A block with more events in Q emits the first one and goes on to the same settled state. -/
theorem drain_more {s : State} {e e' : BusEvent} {rest : List BusEvent} (hq : s.queue = e :: e' :: rest)
    (hbusy : s.busy = true) (hhost : hostSteady s = true) :
    s.drain.queue = e' :: rest ∧ s.drain.busy = true ∧ hostSteady s.drain = true ∧ s.drain.settled = s.settled := by
  obtain ⟨-, hwait⟩ := step_drain hbusy hhost
  have hdrain : s.drain = { s.quiet with queue := e' :: rest }.emitNow e := by simp [State.drain, hq]
  rw [hdrain]
  refine ⟨rfl, hbusy, by simpa [hostSteady, hwait] using hhost, ?_⟩
  simp [State.settled, State.emitNow, State.quiet, hq, hwait, Lines.afterAll]

/-- Draining goes through the events of Q one by one and leaves the settled state. -/
theorem run_drains (q : List BusEvent) {s : State} (hq : s.queue = q) (hbusy : s.busy = true)
    (hhost : hostSteady s = true) :
    Host.Core.run Sys2Proof.core (max 1 q.length) s = .next s.settled := by
  induction q generalizing s with
  | nil => exact run_last hbusy hhost (by simp [hq])
  | cons e rest ih =>
    cases rest with
    | nil => exact run_last hbusy hhost (by simp [hq])
    | cons e' rest =>
      obtain ⟨hq', hbusy', hhost', hsettled⟩ := drain_more hq hbusy hhost
      rw [← hsettled, ← ih hq' hbusy' hhost']
      exact run_next _ (step_drain hbusy hhost).1

/-- Settles O8: the drained state is the settled one. -/
theorem queueDrainsInOrder : Obligations.QueueDrainsInOrder :=
  fun _ hbusy hhost => run_drains _ rfl hbusy hhost

/-- A presented word is accepted, and what its operation comes to is the big step once Q is drained. -/
theorem step_issue {s : State} {w : CmdWord} {rest : List HostMove} (hbusy : s.busy = false)
    (hhost : s.host = .issue w :: rest) :
    ∃ t, step s = .next t ∧ s.operate w = t.settled ∧ t.busy = true ∧ t.host = rest := by
  have haction : s.nextAction = .accept w := by simp [State.nextAction, hhost, hbusy]
  have htail : (s.accept w).host = rest := congrArg List.tail hhost
  cases hd : decode w with
  | reserved o => exact ⟨s.accept w, by simp [step, haction, hd], by simp [State.operate, hd], rfl, htail⟩
  | instr i =>
    obtain ⟨t, hexec⟩ := exec_total i (s.accept w)
    obtain ⟨es, hsur⟩ := exec_surroundings hexec
    have htbusy : t.busy = true := congrArg Surroundings.busy hsur
    have hthost : t.host = (s.accept w).host := congrArg Surroundings.host hsur
    exact ⟨t, by simp [step, haction, hd, hexec], by simp [State.operate, hd, hexec], htbusy, hthost.trans htail⟩

/-- Settles O9, by induction on the words: the first one is accepted and drained, and leaves an idle block to the rest. -/
theorem programRunsAsBigSteps : Obligations.ProgramRunsAsBigSteps := by
  intro ws
  induction ws with
  | nil =>
    intro s hbusy hq hhost
    exact ⟨0, rfl, hbusy, hq, hhost⟩
  | cons w ws ih =>
    intro s hbusy _ hhost
    obtain ⟨t, hstep, hop, htbusy, hthost⟩ := step_issue hbusy hhost
    have hsteady : hostSteady t = true := by
      cases ws <;> simp [hostSteady, hthost]
    have hdrain := (run_next _ hstep).trans (run_drains _ rfl htbusy hsteady)
    rw [← hop] at hdrain
    obtain ⟨k, hrun, hidle⟩ := ih (s.operate w) (by rw [hop]; rfl) (by rw [hop]; rfl) (by rw [hop]; exact hthost)
    exact ⟨_, (run_add k hdrain).trans hrun, hidle⟩

end Sys2Proof.Machine

/-! ## The pixels an operation addresses (20_memory R48, 40_clip_and_mask R82) -/

namespace Sys2Proof.Machine

open Sys2Proof.Safety

/-- The window registers of the bus hold every such rectangle unchanged (40 R83). -/
def Rect.bus : Rect := { l := 0, r := 65535, t := 0, b := 65535 }

/-- Row-major order stays in the window for as many words as it has pixels (20_memory R48). -/
theorem Rect.has_pixelAt {q : Rect} {k : Nat} (hk : k < q.count) : q.has (q.pixelAt k).1 (q.pixelAt k).2 = true := by
  unfold Rect.count at hk
  have hwidth : 0 < (q.r - q.l + 1).toNat := Nat.pos_of_ne_zero fun h => by simp [h] at hk
  obtain ⟨n, hn⟩ : ∃ n : Nat, q.r - q.l + 1 = n := ⟨_, (Int.toNat_of_nonneg (by omega)).symm⟩
  rw [hn, Int.toNat_natCast] at hk hwidth
  have hcol : k % n < n := Nat.mod_lt _ hwidth
  have hrow : k / n < (q.b - q.t + 1).toNat := Nat.div_lt_of_lt_mul hk
  simp only [Rect.has_iff, Rect.pixelAt, hn, ← Int.natCast_mod, ← Int.natCast_ediv]
  generalize k % n = col at hcol ⊢
  generalize k / n = row at hrow ⊢
  omega

/-- What WIN leaves the reading at: the pixel stream of its window. -/
theorem PanelView.foldl_win (c : Cfg) (v : PanelView) {q : Rect} (h : q.Within Rect.bus) :
    ((win c q).foldl (PanelView.next c) v).streaming c = true ∧ ((win c q).foldl (PanelView.next c) v).hi = none ∧
      ((win c q).foldl (PanelView.next c) v).window = some q ∧ ((win c q).foldl (PanelView.next c) v).words = 0 := by
  simp only [Rect.Within, Rect.bus] at h
  have hl := coordinate_bytes (n := q.l) (by omega) (by omega)
  have hr := coordinate_bytes (n := q.r) (by omega) (by omega)
  have ht := coordinate_bytes (n := q.t) (by omega) (by omega)
  have hb := coordinate_bytes (n := q.b) (by omega) (by omega)
  simp [win, d16, PanelView.next, PanelView.start, PanelView.streaming, PanelView.window, hl, hr, ht, hb]

theorem PanelView.pixels_win (c : Cfg) (v : PanelView) (q : Rect) : v.pixels c (win c q) = [] := by
  simp [win, d16, PanelView.pixels, PanelView.write, PanelView.next, PanelView.start, PanelView.streaming]

/-- In the pixel stream of a window, a word writes the pixel whose turn it is. -/
theorem PanelView.pixels_d16 {c : Cfg} {v : PanelView} {q : Rect} (w : Colour) (hs : v.streaming c = true)
    (hhi : v.hi = none) (hq : v.window = some q) :
    v.pixels c (d16 w) = [{ x := (q.pixelAt v.words).1, y := (q.pixelAt v.words).2, colour := w }] ∧
      (d16 w).foldl (PanelView.next c) v = { v with words := v.words + 1 } := by
  have hs' : ({ v with hi := some (highByte w) } : PanelView).streaming c = true := hs
  have hq' : ({ v with hi := some (highByte w) } : PanelView).window = some q := hq
  have hw : highByte w ++ lowByte w = w := highByte_append_lowByte w
  simp [d16, PanelView.pixels, PanelView.write, PanelView.next, hs, hhi, hs', hq', hw]

/-- In the pixel stream of a window, word number `k` writes pixel number `k` of the window. -/
theorem PanelView.mem_pixels_d16s {c : Cfg} {v : PanelView} {q : Rect} (ws : List Colour) (hs : v.streaming c = true)
    (hhi : v.hi = none) (hq : v.window = some q) {p : Pixel} (hp : p ∈ v.pixels c (ws.flatMap d16)) :
    ∃ k, k < v.words + ws.length ∧ (p.x, p.y) = q.pixelAt k := by
  induction ws generalizing v with
  | nil => cases hp
  | cons w ws ih =>
    obtain ⟨hpix, hnext⟩ := PanelView.pixels_d16 w hs hhi hq
    rw [List.flatMap_cons, PanelView.pixels_append, hpix, hnext, List.mem_append, List.mem_singleton] at hp
    rw [List.length_cons]
    obtain rfl | hp := hp
    · exact ⟨v.words, by omega, rfl⟩
    · obtain ⟨k, hk, hpk⟩ := ih (v := { v with words := v.words + 1 }) hs hhi hq hp
      exact ⟨k, by dsimp only at hk; omega, hpk⟩

/-- A window transaction with an exact count writes pixels of its window only (20_memory R48). -/
theorem PanelView.has_of_mem_windowTx {c : Cfg} {v : PanelView} {q : Rect} {ws : List Colour} (hq : q.Within Rect.bus)
    (hn : ws.length = q.count) {p : Pixel} (hp : p ∈ v.pixels c (windowTx c q ws)) : q.has p.x p.y = true := by
  obtain ⟨hs, hhi, hwindow, hwords⟩ := PanelView.foldl_win c v hq
  rw [windowTx, PanelView.pixels_append, PanelView.pixels_append, PanelView.pixels_win, List.nil_append,
    List.mem_append] at hp
  obtain hp | hp := hp
  · obtain ⟨k, hk, hpk⟩ := PanelView.mem_pixels_d16s ws hs hhi hwindow hp
    have := Rect.has_pixelAt (q := q) (k := k) (by omega)
    rwa [← hpk] at this
  · simp [PanelView.pixels, PanelView.write] at hp

/-- The reading of whole transactions ends at the start of a selection. -/
theorem Transactions.foldl_next {c : Cfg} {P : Rect → Prop} {es : List BusEvent} (h : Transactions c P es) :
    es.foldl (PanelView.next c) PanelView.start = PanelView.start := by
  induction h with
  | nil => rfl
  | append _ _ ih1 ih2 => rw [List.foldl_append, ih1, ih2]
  | window => exact PanelView.foldl_windowTx ..
  | command b ds => exact PanelView.foldl_cmdx ..
  | pulse => rfl
  | wait n => rfl

/-- Every pixel of whole transactions lies in one of their windows; command transactions have none (41 R103). -/
theorem Transactions.exists_window {c : Cfg} {P : Rect → Prop} {es : List BusEvent} (h : Transactions c P es)
    (hP : ∀ q, P q → q.Within Rect.bus) {p : Pixel} (hp : p ∈ pixels c es) : ∃ q, P q ∧ q.has p.x p.y = true := by
  induction h with
  | nil => cases hp
  | append h1 _ ih1 ih2 =>
    rw [pixels, PanelView.pixels_append, h1.foldl_next, List.mem_append] at hp
    exact hp.elim ih1 ih2
  | window hq hn => exact ⟨_, hq, PanelView.has_of_mem_windowTx (hP _ hq) hn hp⟩
  | command b ds =>
    rw [pixels, PanelView.pixels_cmdx] at hp
    cases hp
  | pulse => simp [resetPulse, pixels, PanelView.pixels, PanelView.write] at hp
  | wait n => simp [pixels, PanelView.pixels, PanelView.write] at hp

/-- The logical screen fits the bus. -/
theorem State.screen_within_bus (s : State) : s.screen.Within Rect.bus := by
  have hw := s.w_bounds
  have hh := s.h_bounds
  simp only [Rect.Within, State.screen, Rect.bus]
  omega

/-- Settles O20: the windows of an operation are allowed ones, and its pixels lie in its windows. -/
theorem pixelsStayInside : Obligations.PixelsStayInside := by
  intro i s t hm hq hexec
  obtain ⟨es, heff, htrans⟩ := exec_operates hexec
  have hsur := heff.surroundings
  have hcfg : t.cfg = s.cfg := congrArg Surroundings.cfg hsur
  have hqueue : t.queue = es := by
    have : t.queue = s.queue ++ es := congrArg Surroundings.queue hsur
    rwa [hq, List.nil_append] at this
  have hwindow : ∀ p ∈ positions t.cfg t.queue, ∃ q, Allowed i s t q ∧ q.has p.1 p.2 = true := by
    rw [hcfg, hqueue]
    intro _ hpos
    obtain ⟨p, hp, rfl⟩ := List.mem_map.mp hpos
    exact (htrans (maskInv_iff.mp hm)).exists_window (fun q hq => hq.1.trans t.screen_within_bus) hp
  constructor
  · intro p hp
    obtain ⟨q, ⟨hscreen, -⟩, hhas⟩ := hwindow p hp
    exact hscreen.has hhas
  · intro hch hinit p hp
    obtain ⟨q, ⟨-, hmask⟩, hhas⟩ := hwindow p hp
    exact (hmask hch hinit).has hhas

end Sys2Proof.Machine

/-! ## The pixels of window transactions and of the rectangle operations (20_memory R48, 42_rect_primitives R112 to R116) -/

namespace Sys2Proof.Machine

open Sys2Proof.Safety

/-! ### A window's pixels in row-major order -/

/-- Counting through `m` rows of `n` columns visits row after row. -/
theorem range_mul_map_mod_div (m n : Nat) :
    (List.range (m * n)).map (fun k => (k % n, k / n)) =
      (List.range m).flatMap fun i => (List.range n).map fun j => (j, i) := by
  induction m with
  | zero => simp
  | succ m ih =>
    rw [Nat.succ_mul, List.range_add, List.map_append, ih, List.range_succ, List.flatMap_append]
    congr 1
    rw [List.flatMap_singleton, List.map_map]
    refine List.map_congr_left fun j hj => ?_
    have hj : j < n := List.mem_range.mp hj
    have hn : 0 < n := by omega
    simp [Nat.mul_add_div hn, Nat.mul_comm m n, Nat.mod_eq_of_lt hj, Nat.div_eq_of_lt hj]

/-- The pixels whose turn it is, word by word, are the points of the window (20_memory R48). -/
theorem Rect.points_eq_map_pixelAt (q : Rect) : q.points = (List.range q.count).map q.pixelAt := by
  obtain hw | hw := Int.lt_or_le q.r q.l
  · have h : (q.r - q.l + 1).toNat = 0 := by omega
    simp [Rect.points, interval, Rect.count, h]
  · obtain ⟨n, hn⟩ : ∃ n : Nat, q.r - q.l + 1 = n := ⟨_, (Int.toNat_of_nonneg (by omega)).symm⟩
    have hpix : q.pixelAt = (fun p : Nat × Nat => (q.l + (p.1 : Int), q.t + (p.2 : Int))) ∘ fun k => (k % n, k / n) := by
      funext k
      simp [Rect.pixelAt, hn]
    rw [hpix, ← List.map_map, Rect.count, hn, Int.toNat_natCast, Nat.mul_comm, range_mul_map_mod_div]
    simp [Rect.points, interval, hn, List.map_flatMap, List.flatMap_map, Function.comp_def]

theorem Rect.nodup_points (q : Rect) : q.points.Nodup := by
  refine List.nodup_flatMap.mpr ⟨fun y _ => (nodup_interval _ _).map fun a b h => (Prod.mk.inj h).1, ?_⟩
  refine (nodup_interval q.t q.b).imp fun {y y'} hne p hp hp' => ?_
  obtain ⟨_, _, rfl⟩ := List.mem_map.mp hp
  obtain ⟨_, _, h⟩ := List.mem_map.mp hp'
  exact hne (Prod.mk.inj h).2.symm

/-! ### The pixels of a window transaction -/

/-- The write of a colour at a point. -/
def pixelOf (p : Int × Int) (w : Colour) : Pixel := { x := p.1, y := p.2, colour := w }

/-- In the pixel stream of a window, the words go to the pixels from the current one on. -/
theorem PanelView.pixels_d16s {c : Cfg} {v : PanelView} {q : Rect} (ws : List Colour) (hs : v.streaming c = true)
    (hhi : v.hi = none) (hq : v.window = some q) :
    v.pixels c (ws.flatMap d16) = List.zipWith pixelOf ((List.range' v.words ws.length).map q.pixelAt) ws := by
  induction ws generalizing v with
  | nil => rfl
  | cons w ws ih =>
    obtain ⟨hpix, hnext⟩ := PanelView.pixels_d16 w hs hhi hq
    have hrest := ih (v := { v with words := v.words + 1 }) hs hhi hq
    rw [List.flatMap_cons, PanelView.pixels_append, hpix, hnext, hrest]
    rfl

/-- A window transaction with an exact count gives its words to the points of its window in order (20_memory R48). -/
theorem pixels_windowTx {c : Cfg} {q : Rect} {ws : List Colour} (hq : q.Within Rect.bus) (hn : ws.length = q.count) :
    pixels c (windowTx c q ws) = List.zipWith pixelOf q.points ws := by
  obtain ⟨hs, hhi, hwindow, hwords⟩ := PanelView.foldl_win c PanelView.start hq
  have hrel (v : PanelView) : v.pixels c [.rel] = [] := rfl
  rw [pixels, windowTx, PanelView.pixels_append, PanelView.pixels_append, PanelView.pixels_win, hrel,
    PanelView.pixels_d16s ws hs hhi hwindow, hwords, hn, ← List.range_eq_range', ← Rect.points_eq_map_pixelAt,
    List.nil_append, List.append_nil]

/-- Settles O26: the words of a window transaction that fits the bus go to the window's points in order. -/
theorem pixelsOfWindowTransaction : Obligations.PixelsOfWindowTransaction :=
  fun _ _ _ hl hlr hr ht htb hb hn => pixels_windowTx ⟨hl, hlr, hr, ht, htb, hb⟩ hn

/-- A window transaction whose word for each point is a function of the point. -/
theorem pixels_windowTx_map {c : Cfg} {q : Rect} (hq : q.Within Rect.bus) (f : Int × Int → Colour) :
    pixels c (windowTx c q (q.points.map f)) = q.points.map fun p => pixelOf p (f p) := by
  rw [pixels_windowTx hq (by rw [List.length_map, Rect.length_points]), List.zipWith_map_right, List.zipWith_self]

theorem fill_eq_windowTx_map (c : Cfg) (q : Rect) (colour : Colour) :
    fill c q colour = windowTx c q (q.points.map fun _ => colour) := by
  rw [fill, List.map_const', Rect.length_points]

/-! ### One clipped window transaction -/

/-- The points of a rectangle that are in the mask, in row-major order. -/
def State.clipPoints (s : State) (q : Rect) : List (Int × Int) := (s.clipRect q).elim [] Rect.points

/-- What a rectangle operation emits for a requested rectangle: nothing, or one transaction on the clipped one whose words
are given by `f` (42 R112, R114). -/
def State.clippedTx (s : State) (q : Rect) (f : Int × Int → Colour) : List BusEvent :=
  (s.clipRect q).elim [] fun w => windowTx s.cfg w (w.points.map f)

/-- The clipped rectangle is what the request and the mask have in common (40 R83). -/
theorem State.mem_clipPoints {s : State} {q : Rect} {p : Int × Int} :
    p ∈ s.clipPoints q ↔ q.has p.1 p.2 = true ∧ s.mask.has p.1 p.2 = true := by
  unfold State.clipPoints
  cases h : s.clipRect q with
  | none =>
    have hnone := State.clipRect_none.mp h
    simp only [Option.elim_none, List.not_mem_nil, Rect.has_iff, false_iff]
    omega
  | some w =>
    obtain ⟨-, -, rfl⟩ := State.clipRect_some h
    simp only [Option.elim_some, Rect.mem_points, Rect.has_iff]
    omega

theorem State.nodup_clipPoints (s : State) (q : Rect) : (s.clipPoints q).Nodup := by
  unfold State.clipPoints
  cases s.clipRect q with
  | none => exact List.nodup_nil
  | some w => exact w.nodup_points

/-- With the mask on the screen, a clipped transaction writes each point in the mask once, in the colour `f` gives it. -/
theorem State.pixels_clippedTx {s : State} (hm : maskInv s = true) (q : Rect) (f : Int × Int → Colour) :
    pixels s.cfg (s.clippedTx q f) = (s.clipPoints q).map fun p => pixelOf p (f p) := by
  unfold State.clippedTx State.clipPoints
  cases h : s.clipRect q with
  | none => rfl
  | some w =>
    have hscreen := maskInv_iff.mp hm
    exact pixels_windowTx_map (((State.clipRect_within hscreen h).trans hscreen).trans s.screen_within_bus) f

/-- A clipped transaction leaves the reading at the start of a selection. -/
theorem State.foldl_clippedTx (s : State) (q : Rect) (f : Int × Int → Colour) :
    (s.clippedTx q f).foldl (PanelView.next s.cfg) PanelView.start = PanelView.start := by
  unfold State.clippedTx
  cases s.clipRect q with
  | none => rfl
  | some w => exact PanelView.foldl_windowTx ..

/-! ### The rectangle operations -/

theorem State.rectfillBody_eq_clippedTx (s : State) (q : Rect) (c : Colour) :
    s.rectfillBody q c = s.emit (s.clippedTx q fun _ => c) := by
  simp only [State.rectfillBody_eq_emit, State.clippedTx, fill_eq_windowTx_map]

theorem State.bltBody_eq_clippedTx (s : State) (q : Rect) (base : Addr) :
    s.bltBody q base = s.emit (s.clippedTx q fun p => s.bltWord q base p.1 p.2) := by
  unfold State.clippedTx
  obtain ⟨h, hbody⟩ | ⟨w, h, hbody⟩ := s.bltBody_cases q base <;> rw [hbody, h]
  · exact (State.emit_nil s).symm
  · rfl

theorem State.rectBody_eq_clippedTx (s : State) (q : Rect) (c : Colour) :
    s.rectBody q c = s.emit (if q.l > q.r ∨ q.t > q.b then [] else q.edges.flatMap fun e => s.clippedTx e fun _ => c) := by
  simp only [State.rectBody_eq_emit, State.clippedTx, fill_eq_windowTx_map]

/-- Clipped transactions one after the other write their points one after the other. -/
theorem State.pixels_flatMap_clippedTx {s : State} (hm : maskInv s = true) (qs : List Rect) (f : Int × Int → Colour) :
    pixels s.cfg (qs.flatMap fun q => s.clippedTx q f) = (qs.flatMap s.clipPoints).map fun p => pixelOf p (f p) := by
  induction qs with
  | nil => rfl
  | cons q qs ih =>
    rw [List.flatMap_cons, pixels, PanelView.pixels_append, State.foldl_clippedTx, ← pixels, ← pixels,
      State.pixels_clippedTx hm, ih, ← List.map_append, ← List.flatMap_cons]

/-- A pixel of RECT's rectangle lies on one of the four edges exactly if its column or its row is an outermost one. -/
theorem Rect.mem_edges_has {q : Rect} (hq : ¬ (q.l > q.r ∨ q.t > q.b)) {x y : Int} :
    (∃ e ∈ q.edges, e.has x y = true) ↔
      ((x = q.l ∨ x = q.r) ∧ q.t ≤ y ∧ y ≤ q.b ∧ q.l ≤ q.r) ∨ ((y = q.t ∨ y = q.b) ∧ q.l ≤ x ∧ x ≤ q.r ∧ q.t ≤ q.b) := by
  simp only [Rect.edges, List.mem_cons, List.not_mem_nil, or_false, exists_eq_or_imp, exists_eq_left, Rect.has_iff]
  omega

/-- Where and in which colours a list of events draws that writes the points `ps`, each in the colour `f` gives it. -/
theorem positions_and_colours {c : Cfg} {es : List BusEvent} {ps : List (Int × Int)} {f : Int × Int → Colour}
    (h : pixels c es = ps.map fun p => pixelOf p (f p)) :
    positions c es = ps ∧ ∀ p ∈ pixels c es, p.colour = f (p.x, p.y) := by
  rw [positions, h, List.map_map]
  refine ⟨List.map_id ps, fun p hp => ?_⟩
  obtain ⟨_, -, rfl⟩ := List.mem_map.mp hp
  rfl

/-- What RECTFILL and BLT share: one clipped transaction addresses the points in rectangle and mask, each once. -/
theorem State.clippedTx_addresses {s : State} (hm : maskInv s = true) (q : Rect) (f : Int × Int → Colour) :
    (positions s.cfg (s.clippedTx q f)).Nodup ∧
      (∀ x y, (x, y) ∈ positions s.cfg (s.clippedTx q f) ↔
        (q.l ≤ x ∧ x ≤ q.r ∧ q.t ≤ y ∧ y ≤ q.b) ∧ s.mask.has x y = true) ∧
      ∀ p ∈ pixels s.cfg (s.clippedTx q f), p.colour = f (p.x, p.y) := by
  obtain ⟨hpos, hcolour⟩ := positions_and_colours (State.pixels_clippedTx hm q f)
  rw [hpos]
  exact ⟨s.nodup_clipPoints q, fun x y => by rw [State.mem_clipPoints, Rect.has_iff], hcolour⟩

/-- RECT's four transactions address the points of its edges that are in the mask, in its colour. -/
theorem State.edgesTx_addresses {s : State} (hm : maskInv s = true) (q : Rect) (hq : ¬ (q.l > q.r ∨ q.t > q.b))
    (c : Colour) :
    (∀ x y, (x, y) ∈ positions s.cfg (q.edges.flatMap fun e => s.clippedTx e fun _ => c) ↔
      (((x = q.l ∨ x = q.r) ∧ q.t ≤ y ∧ y ≤ q.b ∧ q.l ≤ q.r) ∨
        ((y = q.t ∨ y = q.b) ∧ q.l ≤ x ∧ x ≤ q.r ∧ q.t ≤ q.b)) ∧ s.mask.has x y = true) ∧
      ∀ p ∈ pixels s.cfg (q.edges.flatMap fun e => s.clippedTx e fun _ => c), p.colour = c := by
  obtain ⟨hpos, hcolour⟩ := positions_and_colours (State.pixels_flatMap_clippedTx hm q.edges fun _ => c)
  refine ⟨fun x y => ?_, hcolour⟩
  rw [hpos, List.mem_flatMap, ← Rect.mem_edges_has hq]
  simp only [State.mem_clipPoints]
  exact ⟨fun ⟨e, he, hhas, hmask⟩ => ⟨⟨e, he, hhas⟩, hmask⟩, fun ⟨⟨e, he, hhas⟩, hmask⟩ => ⟨e, he, hhas, hmask⟩⟩

/-- Settles O35: RECTFILL and BLT emit one clipped transaction, RECT one for each edge, and none when it is inverted. -/
theorem rectangleOperationsPixelSet : Obligations.RectangleOperationsPixelSet := by
  intro l r t b s hm hq
  have hqueue (es : List BusEvent) : (s.emit es).queue = es := by rw [State.emit_queue, hq, List.nil_append]
  refine ⟨fun c => ⟨_, rfl, ?_⟩, fun src => ⟨_, rfl, ?_⟩, fun c => ⟨_, rfl, ?_⟩⟩
  · rw [State.rectfillBody_eq_clippedTx, hqueue]
    exact State.clippedTx_addresses hm ⟨l, r, t, b⟩ _
  · rw [State.bltBody_eq_clippedTx, hqueue]
    exact State.clippedTx_addresses hm ⟨l, r, t, b⟩ _
  · rw [State.rectBody_eq_clippedTx, hqueue]
    split
    · next hinv =>
      have hno : pixels s.cfg [] = [] := rfl
      rw [positions, hno]
      refine ⟨fun x y => ?_, fun p hp => (List.not_mem_nil hp).elim⟩
      simp only [List.map_nil, List.not_mem_nil, false_iff]
      dsimp only at hinv
      omega
    · next hinv => exact State.edgesTx_addresses hm ⟨l, r, t, b⟩ hinv c

end Sys2Proof.Machine

/-! ## Encoding and decoding (30_encoding R63 to R73) -/

namespace Sys2Proof

open Sys2Proof.Safety

/-! ### Operand fields under a mask -/

theorem s16Field_toInt (f : Half) : s16Field f.toInt = f := BitVec.ofInt_toInt

theorem u16Field_toNat (f : Half) : u16Field f.toNat = f := BitVec.ofNat_toNat ..

/-- The low `n` bits of a field, written back, are the field with its other bits cleared. -/
theorem setWidth_extractLsb'_zero {w : Nat} (x : BitVec w) (n : Nat) :
    (x.extractLsb' 0 n).setWidth w = x &&& BitVec.ofNat w (2 ^ n - 1) := by
  apply BitVec.eq_of_getLsbD_eq
  intro i hi
  simp only [BitVec.getLsbD_setWidth, BitVec.getLsbD_extractLsb', BitVec.getLsbD_and, BitVec.getLsbD_ofNat,
    Nat.testBit_two_pow_sub_one]
  simp [hi, Bool.and_comm]

theorem setWidth_lowByte (f : Half) : (lowByte f).setWidth 16 = f &&& 0xFF#16 := setWidth_extractLsb'_zero f 8

theorem setWidth_colourOf (e : BitVec 32) : (colourOf e).setWidth 32 = e &&& 0xFFFF#32 := setWidth_extractLsb'_zero e 16

theorem setWidth_byte_and (b : Byte) : b.setWidth 16 &&& 0xFF#16 = b.setWidth 16 := by
  rw [← setWidth_lowByte, lowByte_setWidth]

theorem setWidth_colour_and (c : Colour) : c.setWidth 32 &&& 0xFFFF#32 = c.setWidth 32 := by
  rw [← setWidth_colourOf, colourOf_setWidth]

@[simp] theorem byte_and_ones (o : Byte) : o &&& 0xFF#8 = o := BitVec.and_allOnes
@[simp] theorem half_and_ones (f : Half) : f &&& 0xFFFF#16 = f := BitVec.and_allOnes
@[simp] theorem long_and_ones (e : BitVec 32) : e &&& 0xFFFFFFFF#32 = e := BitVec.and_allOnes

/-! ### The command word as its six fields -/

/-- Every command word is made of its six fields (30_encoding R63). -/
theorem packWord_fields (w : CmdWord) :
    packWord (fieldOpc w) (fieldA w) (fieldB w) (fieldC w) (fieldD w) (fieldE w) = w := by
  have join {start start' len len' : Nat} (h : start' = start + len) :
      w.extractLsb' start' len' ++ w.extractLsb' start len = w.extractLsb' start (len' + len) :=
    BitVec.extractLsb'_append_extractLsb'_eq_extractLsb' h
  unfold packWord fieldOpc fieldA fieldB fieldC fieldD fieldE
  rw [join (by rfl), join (by rfl), join (by rfl), join (by rfl), join (by rfl)]
  exact BitVec.extractLsb'_eq_self

theorem packWord_and (o o' : Byte) (a b c d a' b' c' d' : Half) (e e' : BitVec 32) :
    packWord o a b c d e &&& packWord o' a' b' c' d' e' =
      packWord (o &&& o') (a &&& a') (b &&& b') (c &&& c') (d &&& d') (e &&& e') := by
  simp only [packWord, ← BitVec.and_append]

/-! ### The bits an operation uses -/

/-- The bits of a command word that the operation reads, field by field (30 R64, R65). -/
def Instr.usedMask : Instr → CmdWord
  | .init | .getw | .geth | .getfw | .getfh => packWord 0xFF 0 0 0 0 0
  | .setorient _ | .scrollstart _ => packWord 0xFF 0xFFFF 0 0 0 0
  | .packrgb _ _ _ => packWord 0xFF 0xFF 0xFF 0xFF 0 0
  | .setmask _ _ _ _ => packWord 0xFF 0xFFFF 0xFFFF 0xFFFF 0xFFFF 0
  | .scrolldef _ _ _ => packWord 0xFF 0xFFFF 0xFFFF 0xFFFF 0 0
  | .rectfill _ _ _ _ _ | .rect _ _ _ _ _ | .line _ _ _ _ _ => packWord 0xFF 0xFFFF 0xFFFF 0xFFFF 0xFFFF 0xFFFF
  | .blt _ _ _ _ _ => packWord 0xFF 0xFFFF 0xFFFF 0xFFFF 0xFFFF 0xFFFFFFFF
  | .moveto _ _ | .locate _ _ => packWord 0xFF 0xFFFF 0xFFFF 0 0 0
  | .lineto _ _ _ => packWord 0xFF 0xFFFF 0xFFFF 0 0 0xFFFF
  | .fontface _ | .fontcolor _ => packWord 0xFF 0 0 0 0 0xFFFFFFFF
  | .putchar _ => packWord 0xFF 0xFF 0 0 0 0

theorem usedBits_opcode (i : Instr) : usedBits i.opcode = i.usedMask := by
  cases i <;> rfl

/-- The assembler writes the unused bits as zero (30 R66, R70). -/
theorem encode_and_usedMask (i : Instr) : encode i &&& i.usedMask = encode i := by
  cases i <;> simp [encode, Instr.usedMask, packWord_and, setWidth_byte_and, setWidth_colour_and]

/-! ### The decoder -/

/-- The operation `i` with its operands read from the word `w` (30 R64, R65). -/
def Instr.reread (i : Instr) (w : CmdWord) : Instr :=
  match i with
  | .init => .init
  | .setorient _ => .setorient (fieldA w).toNat
  | .getw => .getw
  | .geth => .geth
  | .packrgb _ _ _ => .packrgb (lowByte (fieldA w)) (lowByte (fieldB w)) (lowByte (fieldC w))
  | .setmask _ _ _ _ => .setmask (fieldA w).toInt (fieldB w).toInt (fieldC w).toInt (fieldD w).toInt
  | .scrolldef _ _ _ => .scrolldef (fieldA w) (fieldB w) (fieldC w)
  | .scrollstart _ => .scrollstart (fieldA w)
  | .rectfill _ _ _ _ _ =>
      .rectfill (fieldA w).toInt (fieldB w).toInt (fieldC w).toInt (fieldD w).toInt (colourOf (fieldE w))
  | .rect _ _ _ _ _ => .rect (fieldA w).toInt (fieldB w).toInt (fieldC w).toInt (fieldD w).toInt (colourOf (fieldE w))
  | .blt _ _ _ _ _ => .blt (fieldA w).toInt (fieldB w).toInt (fieldC w).toInt (fieldD w).toInt (fieldE w)
  | .moveto _ _ => .moveto (fieldA w).toInt (fieldB w).toInt
  | .lineto _ _ _ => .lineto (fieldA w).toInt (fieldB w).toInt (colourOf (fieldE w))
  | .line _ _ _ _ _ => .line (fieldA w).toInt (fieldB w).toInt (fieldC w).toInt (fieldD w).toInt (colourOf (fieldE w))
  | .fontface _ => .fontface (fieldE w)
  | .fontcolor _ => .fontcolor (fieldE w)
  | .locate _ _ => .locate (fieldA w).toNat (fieldB w).toNat
  | .putchar _ => .putchar (lowByte (fieldA w))
  | .getfw => .getfw
  | .getfh => .getfh

/-- OPC alone selects the operation, and the fields give its operands (30 R73). -/
theorem decode_eq_instr_iff {w : CmdWord} {i : Instr} :
    decode w = .instr i ↔ fieldOpc w = i.opcode ∧ i.reread w = i := by
  constructor
  · intro h
    unfold decode at h
    split at h <;> cases h <;> exact ⟨BitVec.eq_of_toNat_eq ‹_›, rfl⟩
  · rintro ⟨hopc, hread⟩
    rw [← hread]
    cases i <;> simp only [decode, hopc, Instr.opcode] <;> rfl

theorem Instr.reread_wellFormed (i : Instr) (w : CmdWord) : (i.reread w).wellFormed = true := by
  cases i <;> simp [Instr.reread, Instr.wellFormed, isS16_toInt, isU16_toNat]

/-- Well-formed operands are read back from their fields. -/
theorem Instr.reread_encode {i : Instr} (h : i.wellFormed = true) : i.reread (encode i) = i := by
  cases i <;> simp only [Instr.wellFormed, Bool.and_eq_true] at h <;>
    simp [Instr.reread, encode, fieldA_packWord, fieldB_packWord, fieldC_packWord, fieldD_packWord, fieldE_packWord,
      lowByte_setWidth, colourOf_setWidth, toInt_s16Field, toNat_u16Field, h]

/-- Operands read from a word are written back as its fields, cleared where the operation does not use them. -/
theorem encode_reread {w : CmdWord} {i : Instr} (hopc : fieldOpc w = i.opcode) :
    encode (i.reread w) = w &&& i.usedMask := by
  conv_rhs => rw [← packWord_fields w, hopc]
  cases i <;>
    simp [encode, Instr.reread, Instr.opcode, Instr.usedMask, packWord_and, setWidth_lowByte, setWidth_colourOf,
      s16Field_toInt, u16Field_toNat]

theorem fieldOpc_encode (i : Instr) : fieldOpc (encode i) = i.opcode := by
  cases i <;> exact fieldOpc_packWord ..

/-- Settles O1: an encoding has the operation's OPC, and its operands are read back. -/
theorem decodeOfEncode : Obligations.DecodeOfEncode := fun i hi =>
  decode_eq_instr_iff.mpr ⟨fieldOpc_encode i, Instr.reread_encode hi⟩

/-- Settles O2: the operation decoded is the one read from the word, in range and written back under the mask. -/
theorem encodeOfDecode : Obligations.EncodeOfDecode := by
  intro w i h
  obtain ⟨hopc, hread⟩ := decode_eq_instr_iff.mp h
  rw [hopc, usedBits_opcode, ← encode_reread hopc, hread]
  exact ⟨hread ▸ i.reread_wellFormed w, rfl⟩

/-- The 20 OPC values of the table (30 R62). -/
def opcodes : List Nat :=
  [0x01, 0x02, 0x03, 0x04, 0x05, 0x10, 0x20, 0x21, 0x30, 0x31, 0x32, 0x40, 0x41, 0x42, 0x50, 0x51, 0x52, 0x53, 0x54,
    0x55]

/-- A word is reserved exactly when its OPC is none of the table's (30 R67). -/
theorem decode_reserved_iff {w : CmdWord} {o : Byte} :
    decode w = .reserved o ↔ o = fieldOpc w ∧ o.toNat ∉ opcodes := by
  constructor
  · intro h
    unfold decode at h
    split at h <;> cases h
    simp_all [opcodes]
  · rintro ⟨rfl, h⟩
    unfold decode
    split
    case h_21 => rfl
    all_goals simp_all [opcodes]

/-- OPC is among the used bits of every word (30 R73). -/
theorem fieldOpc_and_usedBits (w : CmdWord) (o : Byte) : fieldOpc (w &&& usedBits o) = fieldOpc w := by
  have hmask : fieldOpc (usedBits o) = 0xFF#8 := by
    unfold usedBits
    split <;> rfl
  calc fieldOpc (w &&& usedBits o) = fieldOpc w &&& fieldOpc (usedBits o) := BitVec.extractLsb'_and
    _ = fieldOpc w := by rw [hmask, byte_and_ones]

/-- The decoder does not see the unused bits (30 R66). -/
theorem decode_and_usedBits (w : CmdWord) : decode (w &&& usedBits (fieldOpc w)) = decode w := by
  cases h : decode w with
  | instr i =>
    obtain ⟨hwf, henc⟩ := encodeOfDecode w i h
    rw [← henc]
    exact decodeOfEncode i hwf
  | reserved o =>
    obtain ⟨ho, hres⟩ := decode_reserved_iff.mp h
    exact decode_reserved_iff.mpr ⟨by rw [fieldOpc_and_usedBits, ho], hres⟩

/-- Settles O3: the decoder and the assembler both ignore the unused bits. -/
theorem unusedBitsHaveNoEffect : Obligations.UnusedBitsHaveNoEffect := by
  constructor
  · intro w w' h
    rw [← decode_and_usedBits w, h, decode_and_usedBits]
  · intro i
    rw [usedBits_opcode, ← encode_and_usedMask, BitVec.and_assoc, BitVec.and_not_self]
    exact BitVec.and_zero

/-- Settles O5: the decoder evaluates on each of the six words. -/
theorem specWordsDecode : Obligations.SpecWordsDecode :=
  ⟨rfl, rfl, rfl, rfl, rfl, rfl⟩

/-- Of the 256 values of OPC, 236 are not in the table (30 R67). -/
theorem countP_not_opcodes : ((List.range 256).countP fun o => decide (o ∉ opcodes)) = 236 := by
  have hlt : ∀ o ∈ opcodes, o < 256 := by decide
  have hperm : ((List.range 256).filter fun o => decide (o ∈ opcodes)).Perm opcodes := by
    refine (List.perm_ext_iff_of_nodup (List.nodup_range.filter _) (by decide)).mpr fun o => ?_
    simpa using hlt o
  have hsplit := List.length_eq_countP_add_countP (fun o => decide (o ∈ opcodes)) (l := List.range 256)
  rw [List.countP_eq_length_filter, hperm.length_eq, List.length_range] at hsplit
  simp only [decide_eq_true_eq] at hsplit
  exact Nat.add_left_cancel hsplit.symm

/-- So 236 values of OPC are reserved. -/
theorem countP_reserved :
    ((List.range 256).countP fun o =>
      decode (packWord (BitVec.ofNat 8 o) 0 0 0 0 0) == .reserved (BitVec.ofNat 8 o)) = 236 := by
  rw [← countP_not_opcodes]
  refine List.countP_congr fun o ho => ?_
  have hopc : (BitVec.ofNat 8 o).toNat = o := Nat.mod_eq_of_lt (List.mem_range.mp ho)
  rw [beq_iff_eq, decode_reserved_iff, fieldOpc_packWord, hopc]
  simp

end Sys2Proof

/-! ## The command port (30_encoding R60, R61, R67) -/

namespace Sys2Proof.Machine

open Sys2Proof.Safety

/-! ### Acceptance -/

theorem State.nextAction_issue {s : State} {w : CmdWord} {rest : List HostMove} (hbusy : s.busy = false)
    (hhost : s.host = .issue w :: rest) : s.nextAction = .accept w := by
  simp [State.nextAction, hhost, hbusy]

theorem step_of_instr {s : State} {w : CmdWord} {rest : List HostMove} {i : Instr} (hbusy : s.busy = false)
    (hhost : s.host = .issue w :: rest) (hd : decode w = .instr i) : step s = exec i (s.accept w) := by
  simp [step, State.nextAction_issue hbusy hhost, hd]

/-- Settles O6: the state a word is accepted in, written out. -/
theorem stepRunsDecodedInstruction : Obligations.StepRunsDecodedInstruction := by
  intro s w rest i hbusy hhost hd
  rw [step_of_instr hbusy hhost hd, State.accept, hhost, List.tail_cons]

/-- Settles O4: acceptance leaves Q empty, so the next step settles the block. -/
theorem reservedOpcodeIsSilentNoOp : Obligations.ReservedOpcodeIsSilentNoOp := by
  refine ⟨fun w o => decode_reserved_iff, countP_reserved, fun s w o hbusy hq hhost hd => ⟨2, ?_⟩⟩
  have hstep : step s = .next (s.accept w) := by
    simp [step, State.nextAction_issue hbusy hhost, hd]
  have hsteady : hostSteady (s.accept w) = true := by simp [hostSteady, hhost]
  have hdone : (s.accept w).settled = { s with host := [], latch := w, respValid := false, respPending := false } := by
    simp [State.settled, State.accept, hhost, hq, hbusy, Lines.afterAll]
  rw [run_next 1 hstep, run_last rfl hsteady (by simp [hq]), hdone]

/-! ### A busy block -/

/-- What a busy block emits does not depend on the host's moves. -/
theorem State.drain_host (s : State) (moves : List HostMove) :
    { s with host := moves }.drain = { { s with host := [] }.drain with host := waitMoves moves } := by
  unfold State.drain
  rcases s.queue with _ | ⟨e, _ | ⟨e', rest⟩⟩ <;> rfl

@[simp] theorem State.drain_latch (s : State) : s.drain.latch = s.latch := by
  obtain ⟨-, h⟩ | ⟨e, -, h⟩ | ⟨e, e', rest, -, h⟩ := s.drain_cases <;> rw [h] <;> rfl

/-- Settles O7: a step of a busy block, with the host's moves put aside. -/
theorem busyBlockIgnoresCommandPort : Obligations.BusyBlockIgnoresCommandPort := by
  intro s w rest hbusy
  obtain ⟨hnone, -⟩ := step_drain (s := { s with host := [] }) hbusy rfl
  obtain ⟨hword, -⟩ := step_drain (s := { s with host := .issue w :: rest }) hbusy rfl
  refine ⟨_, hnone, congrArg State.host (s.drain_host []), State.drain_latch _, ?_⟩
  rw [hword, State.drain_host]
  rfl

/-! ### Responses -/

/-- The five operations that return a value respond and do nothing else. -/
theorem exec_responds {i : Instr} (s : State) (h : Reg.resp ∈ writes i) : ∃ v, exec i s = .next (s.respond v) := by
  cases i
  case getw | geth | packrgb | getfw | getfh => exact ⟨_, rfl⟩
  all_goals simp [writes] at h

@[simp] theorem State.fontfaceBody_respPending (s : State) (base : Addr) :
    (s.fontfaceBody base).respPending = s.respPending := by
  obtain ⟨-, h⟩ | ⟨-, h⟩ := s.fontfaceBody_cases base <;> rw [h]

theorem State.setorientBody_respPending (s : State) (o : Nat) : (s.setorientBody o).respPending = s.respPending := by
  obtain ⟨-, h⟩ | ⟨-, h⟩ := s.setorientBody_cases o <;> rw [h]
  rfl

theorem State.setmaskBody_respPending (s : State) (l r t b : Int) :
    (s.setmaskBody l r t b).respPending = s.respPending := by
  obtain h | ⟨-, h⟩ := s.setmaskBody_cases l r t b <;> rw [h]
  rfl

theorem State.bltBody_respPending (s : State) (q : Rect) (base : Addr) :
    (s.bltBody q base).respPending = s.respPending := by
  obtain ⟨-, h⟩ | ⟨w, -, h⟩ := s.bltBody_cases q base <;> rw [h]
  rfl

theorem State.printGlyph_respPending (s : State) (ch : Byte) : (s.printGlyph ch).respPending = s.respPending := by
  obtain h | ⟨-, h⟩ := s.printGlyph_cases ch <;> rw [h]
  rfl

theorem State.putcharBody_respPending (s : State) (ch : Byte) : (s.putcharBody ch).respPending = s.respPending := by
  unfold State.putcharBody
  split_ifs
  · rfl
  · rfl
  · rfl
  · rfl
  · exact s.printGlyph_respPending ch

/-- No other operation responds. -/
theorem exec_respPending {i : Instr} {s t : State} (h : Reg.resp ∉ writes i) (hexec : exec i s = .next t) :
    t.respPending = s.respPending := by
  cases i <;> cases hexec
  case getw | geth | packrgb | getfw | getfh => simp [writes] at h
  case init => rw [State.initBody_eq, State.home_respPending, State.fontfaceBody_respPending]; rfl
  case setorient o => exact s.setorientBody_respPending o
  case setmask l r t b => exact s.setmaskBody_respPending l r t b
  case rectfill => rw [State.rectfillBody_eq_emit]; rfl
  case rect => rw [State.rectBody_eq_emit]; rfl
  case blt => exact s.bltBody_respPending ..
  case fontface base => exact s.fontfaceBody_respPending base
  case putchar ch => exact s.putcharBody_respPending ch
  all_goals rfl

/-- An idle block without a host's move does nothing but lower `resp_valid`. -/
theorem step_idle {t : State} (hbusy : t.busy = false) (hhost : t.host = []) : step t = .next t.quiet := by
  simp [step, State.nextAction, hbusy, hhost]

/-- A busy block with Q empty completes (log 5). -/
theorem step_complete {t : State} (hbusy : t.busy = true) (hq : t.queue = []) (hhost : t.host = []) :
    step t = .next t.quiet.complete := by
  simp [step, State.nextAction, State.drain, hbusy, hq, hhost]

/-- Settles O10: acceptance, completion with the response pending, and a quiet step; the others leave the mark alone. -/
theorem respValidIsOnePulse : Obligations.RespValidIsOnePulse := by
  constructor
  · intro s w i hbusy hq hhost hd hresp
    obtain ⟨v, hexec⟩ := exec_responds (s.accept w) hresp
    have h1 : step s = .next ((s.accept w).respond v) := by rw [step_of_instr hbusy hhost hd, hexec]
    have hmoves : ((s.accept w).respond v).host = [] := congrArg List.tail hhost
    have h2 := step_complete (t := (s.accept w).respond v) rfl hq hmoves
    exact ⟨_, _, _, h1, h2, step_idle rfl (congrArg waitMoves hmoves), rfl, rfl, rfl, rfl, rfl, rfl, rfl, rfl⟩
  · intro i s t h hexec
    obtain ⟨es, hsur⟩ := exec_surroundings hexec
    exact ⟨exec_respPending h hexec, congrArg Surroundings.respValid hsur⟩

end Sys2Proof.Machine

/-! ## The clipper and the mask (40_clip_and_mask R81 to R84) -/

namespace Sys2Proof.Machine

open Sys2Proof.Safety

/-- Settles O22: the mask is a rectangle, and it lies on the screen. -/
theorem inMaskIsMaskMembership : Obligations.InMaskIsMaskMembership := by
  intro s x y
  refine ⟨State.inMask_iff, fun hm hin => ?_⟩
  obtain ⟨hl, hr, ht, hb⟩ := Rect.has_iff.mp ((maskInv_iff.mp hm).has hin)
  exact ⟨hl, hr, ht, hb⟩

/-! ### ClipRect -/

/-- The pixels of a result of ClipRect are those the request and the mask have in common. -/
theorem State.clipRect_some_has {s : State} {q w : Rect} (h : s.clipRect q = some w) (x y : Int) :
    w.has x y = true ↔ q.has x y = true ∧ s.mask.has x y = true := by
  have hmem := State.mem_clipPoints (s := s) (q := q) (p := (x, y))
  rwa [State.clipPoints, h, Option.elim_some, Rect.mem_points] at hmem

/-- Without a result the request and the mask have no pixel in common. -/
theorem State.clipRect_none_has {s : State} {q : Rect} (h : s.clipRect q = none) (x y : Int) :
    ¬ (q.has x y = true ∧ s.mask.has x y = true) := by
  have hmem := State.mem_clipPoints (s := s) (q := q) (p := (x, y))
  rw [State.clipPoints, h] at hmem
  exact fun hcommon => List.not_mem_nil (hmem.mpr hcommon)

/-- Every bound of a rectangle on the screen is a 16-bit coordinate that is not negative, so the bus sends it unchanged
(40 R83). -/
theorem Rect.Within.bounds_on_bus {s : State} {w : Rect} (h : w.Within s.screen) :
    ∀ v ∈ [w.l, w.r, w.t, w.b], 0 ≤ v ∧ v ≤ 32767 ∧ ((wrap16 v).toNat : Int) = v := by
  intro v hv
  have hw := s.w_bounds
  have hh := s.h_bounds
  simp only [Rect.Within, State.screen] at h
  simp only [List.mem_cons, List.not_mem_nil, or_false] at hv
  have hnonneg : 0 ≤ v := by omega
  exact ⟨hnonneg, by omega, toNat_wrap16 hnonneg (by omega)⟩

/-- Settles O23: the result lies in the mask by the clamping, and the pixels are the common ones. -/
theorem clipRectIsIntersection : Obligations.ClipRectIsIntersection := by
  intro s q hm
  have hscreen := maskInv_iff.mp hm
  refine ⟨fun w hw => ?_, State.clipRect_none_has⟩
  have hmask := State.clipRect_within hscreen hw
  refine ⟨hmask, ?_, State.clipRect_some_has hw, (hmask.trans hscreen).bounds_on_bus⟩
  obtain ⟨-, -, rfl⟩ := State.clipRect_some hw
  exact ⟨le_max_left .., min_le_left .., le_max_left .., min_le_left ..⟩

/-! ### SETMASK -/

/-- SETMASK writes the mask when the rectangle is well formed and inside the screen. -/
theorem State.setmaskBody_of_inside {s : State} {l r t b : Int}
    (h : 0 ≤ l ∧ l ≤ r ∧ r ≤ s.w - 1 ∧ 0 ≤ t ∧ t ≤ b ∧ b ≤ s.h - 1) :
    s.setmaskBody l r t b = s.setMask { l := l, r := r, t := t, b := b } := by
  rw [State.setmaskBody, if_neg (by omega), if_neg (by omega)]

/-- SETMASK drops every other rectangle. -/
theorem State.setmaskBody_of_not_inside {s : State} {l r t b : Int}
    (h : ¬ (0 ≤ l ∧ l ≤ r ∧ r ≤ s.w - 1 ∧ 0 ≤ t ∧ t ≤ b ∧ b ≤ s.h - 1)) : s.setmaskBody l r t b = s := by
  obtain hdrop | ⟨hin, -⟩ := s.setmaskBody_cases l r t b
  · exact hdrop
  · exact absurd hin h

/-- Settles O24: no coordinate of the screen wraps in a MASK register. -/
theorem setmaskRule : Obligations.SetmaskRule := by
  refine ⟨fun w hopc => decode_eq_instr_iff.mpr ⟨hopc, rfl⟩, fun l r t b s => ⟨fun hin => ?_, fun hout => ?_⟩⟩
  · have hw := s.w_bounds
    have hh := s.h_bounds
    exact ⟨wrap16 l, wrap16 r, wrap16 t, wrap16 b,
      toInt_wrap16 (by omega) (by omega), toInt_wrap16 (by omega) (by omega),
      toInt_wrap16 (by omega) (by omega), toInt_wrap16 (by omega) (by omega),
      congrArg _ (State.setmaskBody_of_inside hin)⟩
  · exact congrArg _ (State.setmaskBody_of_not_inside hout)

/-! ### The work of a line and of a rectangle (30_encoding R72) -/

/-- A line has one step more than its longer axis has unit steps (43 R121). -/
theorem length_lineSteps (x1 y1 x2 y2 : Int) : (lineSteps x1 y1 x2 y2).length = lineN x1 y1 x2 y2 + 1 := by
  dsimp only [lineSteps]
  split
  · exact length_ddaWalk ..
  · rw [List.length_map, length_ddaWalk]

/-- Two 16-bit points are at most 65535 apart on either axis. -/
theorem lineN_le {x1 y1 x2 y2 : Int} (hx1 : isS16 x1 = true) (hy1 : isS16 y1 = true) (hx2 : isS16 x2 = true)
    (hy2 : isS16 y2 = true) : lineN x1 y1 x2 y2 ≤ 65535 := by
  simp only [isS16, Bool.and_eq_true, decide_eq_true_eq] at hx1 hy1 hx2 hy2
  unfold lineN
  omega

/-- Both orientations of the screen have the panel's pixels (10_state R13). -/
theorem State.screen_count (s : State) : s.screen.count = s.cfg.panelW * s.cfg.panelH := by
  simp only [State.screen, Rect.count, State.w, State.h]
  split
  · simp [Nat.mul_comm]
  · simp

theorem panel_pixels_le (c : Cfg) : c.panelW * c.panelH ≤ 2 ^ 30 :=
  calc c.panelW * c.panelH ≤ 32768 * 32768 := Nat.mul_le_mul c.lastCol.isLt c.lastRow.isLt
    _ = 2 ^ 30 := rfl

theorem Rect.Within.one_le_count {q R : Rect} (h : q.Within R) : 1 ≤ q.count := by
  unfold Rect.Within at h
  exact Nat.mul_pos (by omega) (by omega)

theorem Rect.Within.count_le {q R : Rect} (h : q.Within R) : q.count ≤ R.count := by
  unfold Rect.Within at h
  exact Nat.mul_le_mul (by omega) (by omega)

/-- Settles O21: the count of steps, and the mask between the clipped rectangle and the screen. -/
theorem workIsBounded : Obligations.WorkIsBounded := by
  refine ⟨fun x1 y1 x2 y2 hx1 hy1 hx2 hy2 => ?_, fun s => ⟨s.screen_count, ?_⟩, fun s q w hm hw => ?_⟩
  · rw [length_lineSteps]
    exact Nat.succ_le_succ (lineN_le hx1 hy1 hx2 hy2)
  · rw [State.screen_count]
    exact panel_pixels_le s.cfg
  · have hscreen := maskInv_iff.mp hm
    have hwithin := (State.clipRect_within hscreen hw).trans hscreen
    exact ⟨hwithin.one_le_count, hwithin.count_le⟩

end Sys2Proof.Machine

/-! ## The registers an operation writes: the write half of the access table (10_state R34) -/

namespace Sys2Proof.Machine

open Sys2Proof.Safety

/-- The registers of a column of the access table have the same values in `s` and `t`. -/
def Reg.SameIn (s t : State) : Reg → Prop
  | .orient => t.orient = s.orient
  | .mask => t.maskL = s.maskL ∧ t.maskR = s.maskR ∧ t.maskT = s.maskT ∧ t.maskB = s.maskB
  | .pen => t.penX = s.penX ∧ t.penY = s.penY
  | .cur => t.curX = s.curX ∧ t.curY = s.curY
  | .gcolor => t.gcolor = s.gcolor
  | .fontValid => t.fontValid = s.fontValid
  | .fontBase => t.fontBase = s.fontBase
  | .cell => t.fw = s.fw ∧ t.fh = s.fh
  | .resp => t.resp = s.resp ∧ t.responded = s.responded

/-- From `s` to `t` no register changes but those of the columns `rs`. -/
def WritesOnly (rs : List Reg) (s t : State) : Prop := ∀ r, r ∉ rs → Reg.SameIn s t r

/-! ### The writes one by one -/

/-- Column by column of the access table. -/
theorem writesOnly_iff {rs : List Reg} {s t : State} : WritesOnly rs s t ↔
    (Reg.orient ∉ rs → t.orient = s.orient) ∧
    (Reg.mask ∉ rs → t.maskL = s.maskL ∧ t.maskR = s.maskR ∧ t.maskT = s.maskT ∧ t.maskB = s.maskB) ∧
    (Reg.pen ∉ rs → t.penX = s.penX ∧ t.penY = s.penY) ∧
    (Reg.cur ∉ rs → t.curX = s.curX ∧ t.curY = s.curY) ∧
    (Reg.gcolor ∉ rs → t.gcolor = s.gcolor) ∧
    (Reg.fontValid ∉ rs → t.fontValid = s.fontValid) ∧
    (Reg.fontBase ∉ rs → t.fontBase = s.fontBase) ∧
    (Reg.cell ∉ rs → t.fw = s.fw ∧ t.fh = s.fh) ∧
    (Reg.resp ∉ rs → t.resp = s.resp ∧ t.responded = s.responded) := by
  constructor
  · intro h
    exact ⟨h .orient, h .mask, h .pen, h .cur, h .gcolor, h .fontValid, h .fontBase, h .cell, h .resp⟩
  · rintro ⟨horient, hmask, hpen, hcur, hgcolor, hvalid, hbase, hcell, hresp⟩ r
    cases r <;> assumption

theorem WritesOnly.refl (rs : List Reg) (s : State) : WritesOnly rs s s := by
  simp [writesOnly_iff]

theorem WritesOnly.trans {rs : List Reg} {s t u : State} (h : WritesOnly rs s t) (h' : WritesOnly rs t u) :
    WritesOnly rs s u := by
  intro r hr
  have hst := h r hr
  have htu := h' r hr
  cases r <;> simp_all [Reg.SameIn]

theorem WritesOnly.mono {rs rs' : List Reg} {s t : State} (h : WritesOnly rs s t) (hsub : rs ⊆ rs') :
    WritesOnly rs' s t := fun r hr => h r fun hmem => hr (hsub hmem)

theorem WritesOnly.emit (rs : List Reg) (s : State) (es : List BusEvent) : WritesOnly rs s (s.emit es) :=
  WritesOnly.refl rs s

theorem WritesOnly.respond (s : State) (v : Half) : WritesOnly [.resp] s (s.respond v) := by
  simp [writesOnly_iff]

theorem WritesOnly.setMask (s : State) (q : Rect) : WritesOnly [.mask] s (s.setMask q) := by
  simp [writesOnly_iff]

theorem WritesOnly.setPen (s : State) (x y : Int) : WritesOnly [.pen] s (s.setPen x y) := by
  simp [writesOnly_iff]

theorem WritesOnly.cursor (s : State) (x y : Half) : WritesOnly [.cur] s { s with curX := x, curY := y } := by
  simp [writesOnly_iff]

theorem WritesOnly.gcolor (s : State) (g : BitVec 32) : WritesOnly [.gcolor] s { s with gcolor := g } := by
  simp [writesOnly_iff]

theorem WritesOnly.orientTo (s : State) (o : BitVec 2) : WritesOnly [.orient, .mask] s (s.orientTo o) := by
  simp [writesOnly_iff]

theorem WritesOnly.home (s : State) : WritesOnly [.pen, .cur] s s.home := by
  simp [writesOnly_iff]

theorem WritesOnly.fontfaceBody (s : State) (base : Addr) :
    WritesOnly [.fontValid, .fontBase, .cell] s (s.fontfaceBody base) := by
  obtain ⟨-, h⟩ | ⟨-, h⟩ := s.fontfaceBody_cases base <;> rw [h]
  · exact .refl _ s
  · simp [writesOnly_iff]

/-! ### The bodies of the operations -/

theorem WritesOnly.setmaskBody (s : State) (l r t b : Int) : WritesOnly [.mask] s (s.setmaskBody l r t b) := by
  obtain h | ⟨-, h⟩ := s.setmaskBody_cases l r t b <;> rw [h]
  · exact .refl _ s
  · exact .setMask s _

theorem WritesOnly.setorientBody (s : State) (o : Nat) :
    WritesOnly [.orient, .mask, .pen, .cur] s (s.setorientBody o) := by
  obtain ⟨-, h⟩ | ⟨-, h⟩ := s.setorientBody_cases o <;> rw [h]
  · exact .refl _ s
  · exact (WritesOnly.emit _ s _).trans
      (((WritesOnly.orientTo _ _).mono (by simp)).trans ((WritesOnly.home _).mono (by simp)))

theorem WritesOnly.initBody (s : State) : WritesOnly (writes .init) s s.initBody := by
  rw [State.initBody_eq]
  refine ((WritesOnly.orientTo s 0).mono ?_).trans ((WritesOnly.emit _ _ _).trans
    (((WritesOnly.fontfaceBody _ _).mono ?_).trans ((WritesOnly.home _).mono ?_))) <;> simp [writes]

theorem WritesOnly.putcharBody (s : State) (ch : Byte) : WritesOnly [.cur] s (s.putcharBody ch) := by
  unfold State.putcharBody
  split_ifs
  · exact .cursor s _ _
  · exact .cursor s 0 s.curY
  · exact .cursor s _ s.curY
  · exact .cursor s _ _
  · obtain h | ⟨-, h⟩ := s.printGlyph_cases ch <;> rw [h]
    · exact .refl _ s
    · exact .cursor s _ s.curY

/-- The write half of the access table. -/
theorem exec_writesOnly {i : Instr} {s t : State} (h : exec i s = .next t) : WritesOnly (writes i) s t := by
  cases i <;> cases h
  case init => exact .initBody s
  case setorient o => exact .setorientBody s o
  case getw | geth | packrgb | getfw | getfh => exact .respond s _
  case setmask => exact .setmaskBody s _ _ _ _
  case scrolldef | scrollstart => exact .emit _ s _
  case rectfill => rw [State.rectfillBody_eq_emit]; exact .emit _ s _
  case rect => rw [State.rectBody_eq_emit]; exact .emit _ s _
  case blt => rw [State.bltBody_eq_clippedTx]; exact .emit _ s _
  case moveto x y => exact .setPen s x y
  case lineto x y c => exact .setPen s x y
  case line x1 y1 x2 y2 c => exact .setPen s x2 y2
  case fontface base => exact .fontfaceBody s base
  case fontcolor g => exact .gcolor s g
  case locate => exact .cursor s _ _
  case putchar ch => exact .putcharBody s ch

/-- The operations without a bus event leave Q as it is. -/
theorem exec_silent_queue {i : Instr} {s t : State} (hsilent : silent i = true) (h : exec i s = .next t) :
    t.queue = s.queue := by
  cases i <;> cases h
  case getw | geth | packrgb | getfw | getfh | moveto | fontcolor | locate => rfl
  case setmask l r t b =>
    obtain h | ⟨-, h⟩ := s.setmaskBody_cases l r t b <;> rw [h]
    rfl
  case fontface base => exact congrArg Surroundings.queue (s.fontfaceBody_surroundings base)
  all_goals cases hsilent

/-- Settles O18: the write half of the access table, and what no operation writes. -/
theorem operationFrame : Obligations.OperationFrame := by
  intro i s t hexec
  obtain ⟨horient, hmask, hpen, hcur, hgcolor, hvalid, hbase, hcell, hresp⟩ :=
    writesOnly_iff.mp (exec_writesOnly hexec)
  obtain ⟨es, hsur⟩ := exec_surroundings hexec
  have hfont : t.font = s.font := congrArg Surroundings.font hsur
  have hsrc : t.src = s.src := congrArg Surroundings.src hsur
  have hqueue : t.queue = s.queue ++ es := congrArg Surroundings.queue hsur
  have hnone (hsilent : silent i = true) : es = [] := by
    rw [exec_silent_queue hsilent hexec] at hqueue
    exact List.self_eq_append_right.mp hqueue
  exact ⟨horient, hmask, hpen, hcur, hgcolor, hvalid, hbase, hcell, hresp, congrArg Surroundings.cfg hsur,
    fun a => by simp only [State.fontAt, hfont], fun a => by simp only [State.srcAt, hsrc],
    congrArg Surroundings.lines hsur, congrArg Surroundings.busy hsur, congrArg Surroundings.respValid hsur,
    congrArg Surroundings.latch hsur, congrArg Surroundings.emitted hsur, congrArg Surroundings.host hsur,
    congrArg Surroundings.draws hsur, es, hqueue, hnone⟩

end Sys2Proof.Machine

/-! ## The registers an operation does not read: the read half of the access table (10_state R34) -/

namespace Sys2Proof.Machine

open Sys2Proof.Safety

/-- A change of the mask, the pen, the cursor or GCOLOR from outside an operation. -/
inductive Overwrite where
  | mask (l r t b : Half)
  | pen (x y : Half)
  | cur (x y : Half)
  | gcolor (g : BitVec 32)

/-- The column of the access table whose registers are changed. -/
def Overwrite.reg : Overwrite → Reg
  | .mask .. => .mask
  | .pen .. => .pen
  | .cur .. => .cur
  | .gcolor _ => .gcolor

/-- The state after the change. -/
def Overwrite.apply (o : Overwrite) (s : State) : State :=
  match o with
  | .mask l r t b => { s with maskL := l, maskR := r, maskT := t, maskB := b }
  | .pen x y => { s with penX := x, penY := y }
  | .cur x y => { s with curX := x, curY := y }
  | .gcolor g => { s with gcolor := g }

/-! ### What commutes with the change -/

section
variable (o : Overwrite) (s : State)

@[simp] theorem Overwrite.apply_cfg : (o.apply s).cfg = s.cfg := by
  cases o <;> rfl

@[simp] theorem Overwrite.apply_screen : (o.apply s).screen = s.screen := by
  cases o <;> rfl

@[simp] theorem Overwrite.apply_emit (es : List BusEvent) : (o.apply s).emit es = o.apply (s.emit es) := by
  cases o <;> rfl

@[simp] theorem Overwrite.apply_bltWord (q : Rect) (base : Addr) (x y : Int) :
    (o.apply s).bltWord q base x y = s.bltWord q base x y := by
  cases o <;> rfl

/-- FONTFACE's signature check reads FONT and the configuration only. -/
theorem Overwrite.apply_fontfaceBody (base : Addr) :
    (o.apply s).fontfaceBody base = o.apply (s.fontfaceBody base) := by
  simp only [State.fontfaceBody, apply_ite o.apply]
  cases o <;> rfl

end

section
variable {o : Overwrite} (s : State)

theorem Overwrite.apply_clippedTx (hmask : o.reg ≠ .mask) (q : Rect) (f : Int × Int → Colour) :
    (o.apply s).clippedTx q f = s.clippedTx q f := by
  cases o with
  | mask => exact absurd rfl hmask
  | pen | cur | gcolor => rfl

theorem Overwrite.apply_lineEvents (hmask : o.reg ≠ .mask) (x1 y1 x2 y2 : Int) (c : Colour) :
    (o.apply s).lineEvents x1 y1 x2 y2 c = s.lineEvents x1 y1 x2 y2 c := by
  cases o with
  | mask => exact absurd rfl hmask
  | pen | cur | gcolor => rfl

theorem Overwrite.apply_setmaskBody (hmask : o.reg ≠ .mask) (l r t b : Int) :
    (o.apply s).setmaskBody l r t b = o.apply (s.setmaskBody l r t b) := by
  simp only [State.setmaskBody, apply_ite o.apply]
  cases o with
  | mask => exact absurd rfl hmask
  | pen | cur | gcolor => rfl

theorem Overwrite.apply_orientTo (hmask : o.reg ≠ .mask) (v : BitVec 2) :
    (o.apply s).orientTo v = o.apply (s.orientTo v) := by
  cases o with
  | mask => exact absurd rfl hmask
  | pen | cur | gcolor => rfl

theorem Overwrite.apply_setPen (hpen : o.reg ≠ .pen) (x y : Int) : (o.apply s).setPen x y = o.apply (s.setPen x y) := by
  cases o with
  | pen => exact absurd rfl hpen
  | mask | cur | gcolor => rfl

theorem Overwrite.apply_setCur (hcur : o.reg ≠ .cur) (x y : Int) : (o.apply s).setCur x y = o.apply (s.setCur x y) := by
  cases o with
  | cur => exact absurd rfl hcur
  | mask | pen | gcolor => rfl

theorem Overwrite.apply_home (hpen : o.reg ≠ .pen) (hcur : o.reg ≠ .cur) : (o.apply s).home = o.apply s.home := by
  rw [State.home, Overwrite.apply_setPen s hpen, Overwrite.apply_setCur _ hcur, ← State.home]

theorem Overwrite.apply_setorientBody (hmask : o.reg ≠ .mask) (hpen : o.reg ≠ .pen) (hcur : o.reg ≠ .cur) (v : Nat) :
    (o.apply s).setorientBody v = o.apply (s.setorientBody v) := by
  simp only [State.setorientBody, State.drop, Overwrite.apply_cfg, Overwrite.apply_emit,
    Overwrite.apply_orientTo _ hmask, Overwrite.apply_home _ hpen hcur, apply_ite o.apply]

theorem Overwrite.apply_initBody (hmask : o.reg ≠ .mask) (hpen : o.reg ≠ .pen) (hcur : o.reg ≠ .cur) :
    (o.apply s).initBody = o.apply s.initBody := by
  rw [State.initBody_eq, State.initBody_eq, Overwrite.apply_orientTo s hmask, Overwrite.apply_cfg,
    Overwrite.apply_screen, Overwrite.apply_emit, Overwrite.apply_fontfaceBody, Overwrite.apply_home _ hpen hcur]

/-- A printed character needs cursor, colour and font, and neither mask nor pen (44 R141). -/
theorem Overwrite.apply_printGlyph (hcur : o.reg ≠ .cur) (hcolour : o.reg ≠ .gcolor) (ch : Byte) :
    (o.apply s).printGlyph ch = o.apply (s.printGlyph ch) := by
  simp only [State.printGlyph, apply_ite o.apply]
  cases o with
  | mask | pen => rfl
  | cur => exact absurd rfl hcur
  | gcolor => exact absurd rfl hcolour

theorem Overwrite.apply_putcharBody (hcur : o.reg ≠ .cur) (hcolour : o.reg ≠ .gcolor) (ch : Byte) :
    (o.apply s).putcharBody ch = o.apply (s.putcharBody ch) := by
  simp only [State.putcharBody, apply_ite o.apply, Overwrite.apply_printGlyph s hcur hcolour]
  cases o with
  | mask | pen => rfl
  | cur => exact absurd rfl hcur
  | gcolor => exact absurd rfl hcolour

end

/-! ### The operations -/

/-- The read half of the access table: an operation commutes with a change of what it neither reads nor writes. -/
theorem exec_overwrite_apply {i : Instr} {s t : State} {o : Overwrite} (hread : o.reg ∉ reads i)
    (hwrite : o.reg ∉ writes i) (h : exec i s = .next t) : exec i (o.apply s) = .next (o.apply t) := by
  have hne {r : Reg} (hr : r ∈ reads i ++ writes i) : o.reg ≠ r := by
    rintro rfl
    exact (List.mem_append.mp hr).elim hread hwrite
  cases i <;> cases h <;> refine congrArg Host.Outcome.next ?_
  case init =>
    exact Overwrite.apply_initBody s (hne (by simp [writes])) (hne (by simp [writes])) (hne (by simp [writes]))
  case setorient v =>
    exact Overwrite.apply_setorientBody s (hne (by simp [writes])) (hne (by simp [writes])) (hne (by simp [writes])) v
  case getw | geth | packrgb | getfw | getfh | scrolldef | scrollstart => cases o <;> rfl
  case setmask l r t b => exact Overwrite.apply_setmaskBody s (hne (by simp [writes])) l r t b
  case rectfill =>
    have hmask := hne (r := .mask) (by simp [reads])
    simp only [State.rectfillBody_eq_clippedTx, Overwrite.apply_clippedTx s hmask, Overwrite.apply_emit]
  case rect =>
    have hmask := hne (r := .mask) (by simp [reads])
    simp only [State.rectBody_eq_clippedTx, Overwrite.apply_clippedTx s hmask, Overwrite.apply_emit]
  case blt =>
    have hmask := hne (r := .mask) (by simp [reads])
    simp only [State.bltBody_eq_clippedTx, Overwrite.apply_clippedTx s hmask, Overwrite.apply_emit,
      Overwrite.apply_bltWord]
  case moveto x y => exact Overwrite.apply_setPen s (hne (by simp [writes])) x y
  case lineto x y c =>
    cases o with
    | mask => exact (hne (r := .mask) (by simp [reads]) rfl).elim
    | pen => exact (hne (r := .pen) (by simp [reads]) rfl).elim
    | cur | gcolor => rfl
  case line x1 y1 x2 y2 c =>
    have hmask := hne (r := .mask) (by simp [reads])
    have hpen := hne (r := .pen) (by simp [writes])
    simp only [State.drawLine, Overwrite.apply_lineEvents s hmask, Overwrite.apply_emit, Overwrite.apply_setPen _ hpen]
  case fontface base => exact o.apply_fontfaceBody s base
  case fontcolor g =>
    cases o with
    | gcolor => exact (hne (r := .gcolor) (by simp [writes]) rfl).elim
    | mask | pen | cur => rfl
  case locate col row =>
    cases o with
    | cur => exact (hne (r := .cur) (by simp [writes]) rfl).elim
    | mask | pen | gcolor => rfl
  case putchar ch => exact Overwrite.apply_putcharBody s (hne (by simp [reads])) (hne (by simp [reads])) ch

/-- Settles O19: each of the four changes is an `Overwrite`. -/
theorem unreadRegistersDoNotMatter : Obligations.UnreadRegistersDoNotMatter := by
  intro i s t hexec
  exact ⟨fun l r u b hread hwrite => exec_overwrite_apply (o := .mask l r u b) hread hwrite hexec,
    fun x y hread hwrite => exec_overwrite_apply (o := .pen x y) hread hwrite hexec,
    fun x y hread hwrite => exec_overwrite_apply (o := .cur x y) hread hwrite hexec,
    fun g hread hwrite => exec_overwrite_apply (o := .gcolor g) hread hwrite hexec⟩

end Sys2Proof.Machine

/-! ## The bus traffic: grammar and pixel counts (41_addressing_and_bus R95 to R98) -/

namespace Sys2Proof.Machine

open Sys2Proof.Safety

/-! ### The grammar and the pixel counts of whole transactions -/

theorem wellFramed_iff {trace : List BusEvent} : wellFramed trace = true ↔ Phase.released.run trace = some .released :=
  beq_iff_eq

/-- Whole transactions are items of the grammar one after the other (41 R95). -/
theorem Transactions.run_released {c : Cfg} {P : Rect → Prop} {es : List BusEvent} (h : Transactions c P es) :
    Phase.released.run es = some .released := by
  induction h with
  | nil => rfl
  | append _ _ ih1 ih2 => rw [Phase.run_append, ih1, Option.bind_some, ih2]
  | window => exact Phase.run_windowTx ..
  | command b ds => exact Phase.run_cmdx b ds
  | pulse => rfl
  | wait n => rfl

theorem exactFrom_d16s (c : Cfg) (v : PanelView) (ws : List Colour) : exactFrom c v (ws.flatMap d16) = true := by
  induction ws generalizing v with
  | nil => rfl
  | cons w ws ih => exact ih _

/-- In the pixel stream of a window, each word counts once. -/
theorem PanelView.foldl_d16s {c : Cfg} {v : PanelView} {q : Rect} (ws : List Colour) (hs : v.streaming c = true)
    (hhi : v.hi = none) (hq : v.window = some q) :
    (ws.flatMap d16).foldl (PanelView.next c) v = { v with words := v.words + ws.length } := by
  induction ws generalizing v with
  | nil => rfl
  | cons w ws ih =>
    have hnext := (PanelView.pixels_d16 w hs hhi hq).2
    rw [List.flatMap_cons, List.foldl_append, hnext, ih (v := { v with words := v.words + 1 }) hs hhi hq]
    simp [Nat.add_assoc, Nat.add_comm]

/-- A pixel stream with as many whole words as its window has pixels. -/
theorem countOk_of_window {c : Cfg} {v : PanelView} {q : Rect} (hs : v.streaming c = true) (hhi : v.hi = none)
    (hq : v.window = some q) (hn : v.words = q.count) : countOk c v = true := by
  simp [countOk, hs, hhi, hq, hn]

/-- A window that fits the bus, sent with one word for each of its pixels, has an exact pixel count (41 R98). -/
theorem exactFrom_windowTx (c : Cfg) (v : PanelView) {q : Rect} {ws : List Colour} (hq : q.Within Rect.bus)
    (hn : ws.length = q.count) : exactFrom c v (windowTx c q ws) = true := by
  obtain ⟨hs, hhi, hwindow, hwords⟩ := PanelView.foldl_win c v hq
  have hwin : exactFrom c v (win c q) = true := rfl
  rw [windowTx, exactFrom_append, exactFrom_append, List.foldl_append, PanelView.foldl_d16s ws hs hhi hwindow, hwin,
    exactFrom_d16s]
  generalize (win c q).foldl (PanelView.next c) v = u at hs hhi hwindow hwords ⊢
  have hcount := countOk_of_window (v := { u with words := u.words + ws.length }) hs hhi hwindow
    (by dsimp only; omega)
  simpa only [exactFrom, Bool.true_and, Bool.and_true] using hcount

/-- Whole transactions whose windows fit the bus have exact pixel counts, whatever came before. -/
theorem Transactions.exactFrom_eq_true {c : Cfg} {P : Rect → Prop} {es : List BusEvent} (h : Transactions c P es)
    (hP : ∀ q, P q → q.Within Rect.bus) (v : PanelView) : exactFrom c v es = true := by
  induction h generalizing v with
  | nil => rfl
  | append _ _ ih1 ih2 => rw [exactFrom_append, ih1, ih2, Bool.true_and]
  | window hq hn => exact exactFrom_windowTx c v (hP _ hq) hn
  | command b ds => exact exactFrom_cmdx c v b ds
  | pulse => rfl
  | wait n => rfl

/-! ### The traffic of the block -/

/-- The trace is well framed and every window in it has an exact pixel count (41 R95, R98). -/
def GoodTrace (c : Cfg) (trace : List BusEvent) : Prop := wellFramed trace = true ∧ exactCounts c trace = true

theorem trafficGood_iff {s : State} : trafficGood s = true ↔ GoodTrace s.cfg (s.trace ++ s.queue) := by
  simp [trafficGood, GoodTrace]

/-- A good trace stays good when whole transactions follow. -/
theorem GoodTrace.append {c : Cfg} {P : Rect → Prop} {trace es : List BusEvent} (htrace : GoodTrace c trace)
    (hes : Transactions c P es) (hP : ∀ q, P q → q.Within Rect.bus) : GoodTrace c (trace ++ es) := by
  obtain ⟨hframed, hexact⟩ := htrace
  constructor
  · rw [wellFramed_iff, Phase.run_append, wellFramed_iff.mp hframed, Option.bind_some, hes.run_released]
  · rw [exactCounts, exactFrom_append, hes.exactFrom_eq_true hP, Bool.and_true]
    exact hexact

/-- With the mask on the screen, an operation's windows lie on the screen and so fit the bus: what it adds to Q keeps the
traffic good. -/
theorem exec_keeps_goodTrace {i : Instr} {s t : State} (hm : s.mask.Within s.screen) (hexec : exec i s = .next t)
    {trace : List BusEvent} (h : GoodTrace s.cfg (trace ++ s.queue)) : GoodTrace t.cfg (trace ++ t.queue) := by
  obtain ⟨es, heff, htrans⟩ := exec_operates hexec
  have hcfg : t.cfg = s.cfg := congrArg Surroundings.cfg heff.surroundings
  have hqueue : t.queue = s.queue ++ es := congrArg Surroundings.queue heff.surroundings
  rw [hcfg, hqueue, ← List.append_assoc]
  exact h.append (htrans hm) fun _ hq => hq.1.trans t.screen_within_bus

/-- Settles O17: the operation's transactions follow an empty trace. -/
theorem operationTraceIsWellFormed : Obligations.OperationTraceIsWellFormed := by
  intro i s t hm hq hexec
  have hempty : GoodTrace s.cfg ([] ++ s.queue) := by
    rw [hq]
    exact ⟨rfl, rfl⟩
  exact exec_keeps_goodTrace (maskInv_iff.mp hm) hexec hempty

@[simp] theorem State.drain_cfg (s : State) : s.drain.cfg = s.cfg := by
  obtain ⟨-, h⟩ | ⟨e, -, h⟩ | ⟨e, e', rest, -, h⟩ := s.drain_cases <;> rw [h] <;> rfl

/-- An event leaves Q for the trace, so the whole traffic stays the same. -/
theorem State.drain_traffic (s : State) : s.drain.trace ++ s.drain.queue = s.trace ++ s.queue := by
  obtain ⟨hq, h⟩ | ⟨e, hq, h⟩ | ⟨e, e', rest, hq, h⟩ := s.drain_cases <;> rw [h, hq] <;>
    simp [State.trace, hq]

theorem State.nextAction_blockReset {s : State} (h : s.nextAction = .blockReset) : s.rstAsserted = true := by
  unfold State.nextAction at h
  split at h
  · next rest hhost => simp [State.rstAsserted, hhost]
  · split at h <;> cases h
  · split at h <;> cases h

/-- Settles O16, by the cases of a step: a reset of an idle block finds Q empty, only an operation adds to the traffic. -/
theorem stepKeepsTrafficGood : Obligations.StepKeepsTrafficGood := by
  intro s t hinv hgood hrst hstep
  obtain ⟨hmask, -, -, hidle, -⟩ := inv_iff.mp hinv
  obtain ⟨ha, rfl⟩ | ⟨-, rfl⟩ | ⟨-, rfl⟩ | ⟨w, o, -, -, rfl⟩ | ⟨w, i, -, -, hexec⟩ := step_cases hstep <;>
    rw [trafficGood_iff] at hgood ⊢
  · have hbusy : s.busy = false := hrst (State.nextAction_blockReset ha)
    obtain ⟨hq, -⟩ := hidle.resolve_left (by simp [hbusy])
    rwa [hq] at hgood
  · rwa [State.drain_cfg, State.drain_traffic]
  · exact hgood
  · exact hgood
  · have hemitted : t.trace = s.trace := by
      obtain ⟨es, hsur⟩ := exec_surroundings hexec
      exact congrArg (fun u => u.emitted.reverse) hsur
    rw [hemitted]
    exact exec_keeps_goodTrace (s := s.accept w) hmask hexec hgood

/-! ### The shape of a window transaction, and the pins (41 R93, R94, R96) -/

/-- Settles O25: the definitions of WIN and `D16` written out, and the length of a window transaction. -/
theorem windowTransactionShape : Obligations.WindowTransactionShape := by
  intro c q ws
  refine ⟨?_, length_windowTx c q ws⟩
  rintro _ _ _ _ rfl rfl rfl rfl
  rfl

/-- Settles O28: the actions of each event, from lines with `dc = 1`. -/
theorem pinsFollowEvents : Obligations.PinsFollowEvents := by
  rintro ⟨sel, dc, rstn⟩ b v n (rfl : dc = true)
  refine ⟨rfl, rfl, rfl, rfl, rfl, rfl, rfl, rfl, rfl, rfl, fun e => ?_⟩
  cases e <;> rfl

/-! ### The scroll operations (41 R104, R105) -/

/-- Settles O29: OPC selects the operation, and its three values join Q in one command transaction. -/
theorem scrolldefRule : Obligations.ScrolldefRule :=
  ⟨fun _ hopc => decode_eq_instr_iff.mpr ⟨hopc, rfl⟩, fun _ _ _ _ => rfl⟩

/-- Settles O30: OPC selects the operation, and its offset joins Q in one command transaction. -/
theorem scrollstartRule : Obligations.ScrollstartRule :=
  ⟨fun _ hopc => decode_eq_instr_iff.mpr ⟨hopc, rfl⟩, fun _ _ => rfl⟩

end Sys2Proof.Machine

/-! ## The window FSM (41_addressing_and_bus R99, R100) -/

namespace Sys2Proof.Machine

/-- A run of the window FSM and a run on from where it ended make one run. -/
theorem WindowFsm.run_add {c : Cfg} {f g h : WindowFsm} {k m : Nat} {es fs : List BusEvent}
    (hk : f.run c k = (es, g)) (hm : g.run c m = (fs, h)) : f.run c (k + m) = (es ++ fs, h) := by
  induction k generalizing f es with
  | zero =>
    cases hk
    rw [Nat.zero_add, hm, List.nil_append]
  | succ k ih =>
    cases hk
    rw [Nat.succ_add, WindowFsm.run, ih rfl, List.append_assoc]

/-- The window-open states emit WIN and fetch the first word (41 R96). -/
theorem WindowFsm.run_win (c : Cfg) (q : Rect) (p : Colour) (ws : List Colour) :
    (WindowFsm.start q (p :: ws)).run c 12 =
      (win c q, { WindowFsm.start q (p :: ws) with state := .pixH, p := p, supply := ws }) := rfl

/-- The two pixel states emit the word P and, while CNT is not down to 1, fetch the next one. -/
theorem WindowFsm.run_pixel (c : Cfg) {f : WindowFsm} (hstate : f.state = .pixH) {p : Colour} {ws : List Colour}
    (hsupply : f.supply = p :: ws) (hcnt : 1 < f.cnt) :
    f.run c 2 = (d16 f.p, { f with cnt := f.cnt - 1, p := p, supply := ws }) := by
  have hmore : f.cnt - 1 ≠ 0 := by omega
  simp [WindowFsm.run, WindowFsm.emits, WindowFsm.next, WindowFsm.fetchPixel, hstate, hsupply, hmore, d16]

/-- The last pixel word brings CNT to 0 and the machine to W_REL. -/
theorem WindowFsm.run_last_pixel (c : Cfg) {f : WindowFsm} (hstate : f.state = .pixH) (hcnt : f.cnt = 1) :
    f.run c 2 = (d16 f.p, { f with state := .rel, cnt := 0 }) := by
  simp [WindowFsm.run, WindowFsm.emits, WindowFsm.next, hstate, hcnt, d16]

/-- From the first word in P on, with as many words as CNT says, the pixel states emit every word and CNT ends at 0. -/
theorem WindowFsm.run_pixels (c : Cfg) (ws : List Colour) {f : WindowFsm} (hstate : f.state = .pixH)
    (hsupply : f.supply = ws) (hcnt : f.cnt = ws.length + 1) :
    ∃ g, f.run c (2 * (ws.length + 1)) = ((f.p :: ws).flatMap d16, g) ∧ g.state = .rel ∧ g.cnt = 0 := by
  induction ws generalizing f with
  | nil => exact ⟨_, WindowFsm.run_last_pixel c hstate hcnt, rfl, rfl⟩
  | cons p ws ih =>
    rw [List.length_cons] at hcnt
    have hword := WindowFsm.run_pixel c hstate hsupply (by omega)
    obtain ⟨g, hrest, hg⟩ :=
      ih (f := { f with cnt := f.cnt - 1, p := p, supply := ws }) hstate rfl (by dsimp only; omega)
    refine ⟨g, ?_, hg⟩
    rw [List.length_cons, Nat.mul_succ, Nat.add_comm]
    exact WindowFsm.run_add hword hrest

theorem WindowFsm.run_rel (c : Cfg) {f : WindowFsm} (hstate : f.state = .rel) :
    f.run c 1 = ([.rel], { f with state := .idle }) := by
  simp [WindowFsm.run, WindowFsm.emits, WindowFsm.next, hstate]

/-- The whole run: WIN, the pixel words, REL, and back in W_IDLE with CNT = 0 (41 R100). -/
theorem WindowFsm.run_start (c : Cfg) {q : Rect} {ws : List Colour} (hn : ws.length = q.count) (hpos : 1 ≤ q.count) :
    ∃ g, (WindowFsm.start q ws).run c (13 + 2 * q.count) = (windowTx c q ws, g) ∧ g.state = .idle ∧ g.cnt = 0 := by
  cases ws with
  | nil =>
    rw [List.length_nil] at hn
    omega
  | cons p ws =>
    obtain ⟨g, hpixels, hrel, hcnt⟩ := WindowFsm.run_pixels c ws
      (f := { WindowFsm.start q (p :: ws) with state := .pixH, p := p, supply := ws }) rfl rfl hn.symm
    have hrun := WindowFsm.run_add (WindowFsm.run_add (WindowFsm.run_win c q p ws) hpixels) (WindowFsm.run_rel c hrel)
    refine ⟨{ g with state := .idle }, ?_, rfl, hcnt⟩
    rw [← hn, List.length_cons, show 13 + 2 * (ws.length + 1) = 12 + 2 * (ws.length + 1) + 1 by omega]
    exact hrun

/-- No state emits more than one event. -/
theorem WindowFsm.length_emits_le (c : Cfg) (f : WindowFsm) : (f.emits c).length ≤ 1 := by
  unfold WindowFsm.emits
  split <;> simp

theorem WindowFsm.length_run_le (c : Cfg) (f : WindowFsm) (k : Nat) : (f.run c k).1.length ≤ k := by
  induction k generalizing f with
  | zero => exact Nat.le_refl 0
  | succ k ih =>
    have hhead := f.length_emits_le c
    have htail := ih f.next
    rw [WindowFsm.run, List.length_append]
    omega

/-- A run with as many events as steps emits one event in each step. -/
theorem WindowFsm.length_emits_of_length_run {c : Cfg} {f : WindowFsm} {n k : Nat} (hn : (f.run c n).1.length = n)
    (hk : k < n) : ((f.run c k).2.emits c).length = 1 := by
  obtain ⟨m, rfl⟩ : ∃ m, n = k + (m + 1) := ⟨n - k - 1, by omega⟩
  have hbefore := f.length_run_le c k
  have hstep := (f.run c k).2.length_emits_le c
  have hafter := (f.run c k).2.next.length_run_le c m
  rw [WindowFsm.run_add (f := f) (k := k) (m := m + 1) rfl rfl] at hn
  simp only [List.length_append] at hn
  omega

/-- Settles O27: the run of the machine, whose `13 + 2n` events leave no step without one. -/
theorem windowFsmEmitsTransaction : Obligations.WindowFsmEmitsTransaction := by
  intro c q ws hn hpos
  obtain ⟨g, hrun, hidle, hcnt⟩ := WindowFsm.run_start c hn hpos
  have hlength : ((WindowFsm.start q ws).run c (13 + 2 * q.count)).1.length = 13 + 2 * q.count := by
    rw [hrun, length_windowTx, hn]
  rw [hrun] at hlength ⊢
  refine ⟨rfl, hidle, hcnt, fun k hk => WindowFsm.length_emits_of_length_run ?_ hk⟩
  rwa [hrun]

end Sys2Proof.Machine

/-! ## The rectangle operations (42_rect_primitives R112 to R115) -/

namespace Sys2Proof.Machine

open Sys2Proof.Safety

/-! ### Clipping a request that has, or has not, a pixel in common with the mask -/

/-- ClipRect clamps each edge of a request that has a pixel in common with the mask (40 R81). -/
theorem State.clipRect_of_common {s : State} {q : Rect}
    (h : ∃ x y, (q.l ≤ x ∧ x ≤ q.r ∧ q.t ≤ y ∧ y ≤ q.b) ∧ s.mask.has x y = true) :
    s.clipRect q =
      some { l := max q.l s.mask.l, r := min q.r s.mask.r, t := max q.t s.mask.t, b := min q.b s.mask.b } := by
  obtain ⟨x, y, hq, hmask⟩ := h
  cases hclip : s.clipRect q with
  | none => exact absurd ⟨Rect.has_iff.mpr hq, hmask⟩ (State.clipRect_none_has hclip x y)
  | some w =>
    obtain ⟨-, -, rfl⟩ := State.clipRect_some hclip
    rfl

/-- With the mask on the screen, ClipRect answers none for a request without a pixel in the mask: a result has an upper
left corner, which both have in common. -/
theorem State.clipRect_of_no_common {s : State} (hm : maskInv s = true) {q : Rect}
    (hno : ¬ ∃ x y, (q.l ≤ x ∧ x ≤ q.r ∧ q.t ≤ y ∧ y ≤ q.b) ∧ s.mask.has x y = true) : s.clipRect q = none := by
  cases hclip : s.clipRect q with
  | none => rfl
  | some w =>
    obtain ⟨-, hlr, -, -, htb, -⟩ := State.clipRect_within (maskInv_iff.mp hm) hclip
    have hcorner : w.has w.l w.t = true := Rect.has_iff.mpr ⟨le_refl _, hlr, le_refl _, htb⟩
    obtain ⟨hq, hmask⟩ := (State.clipRect_some_has hclip w.l w.t).mp hcorner
    exact absurd ⟨w.l, w.t, Rect.has_iff.mp hq, hmask⟩ hno

/-- With the mask on the screen, a clipped rectangle has width times height pixels (41 R97). -/
theorem State.count_of_clipRect {s : State} (hm : maskInv s = true) {q w : Rect} (h : s.clipRect q = some w) :
    (w.count : Int) = (w.r - w.l + 1) * (w.b - w.t + 1) := by
  obtain ⟨-, hlr, -, -, htb, -⟩ := State.clipRect_within (maskInv_iff.mp hm) h
  rw [Rect.count, Int.natCast_mul, Int.toNat_of_nonneg (by omega), Int.toNat_of_nonneg (by omega)]

/-- The colour operand is the low half of a command word's field E (30 R65). -/
theorem colourOf_fieldE (w : CmdWord) : colourOf (fieldE w) = w.extractLsb' 0 16 := by
  ext i
  simp [colourOf, fieldE]

/-! ### RECTFILL -/

theorem State.rectfillBody_of_clipRect {s : State} {q w : Rect} (h : s.clipRect q = some w) (c : Colour) :
    s.rectfillBody q c = s.emit (fill s.cfg w c) := by
  rw [State.rectfillBody_eq_emit, h, Option.elim_some]

theorem State.rectfillBody_of_clipRect_none {s : State} {q : Rect} (h : s.clipRect q = none) (c : Colour) :
    s.rectfillBody q c = s := by
  rw [State.rectfillBody_eq_emit, h, Option.elim_none, State.emit_nil]

/-- Settles O31: a common pixel makes ClipRect clamp the request, whose solid transaction joins Q; without one ClipRect
answers none. -/
theorem rectfillRule : Obligations.RectfillRule := by
  refine ⟨fun w hopc => decode_eq_instr_iff.mpr ⟨hopc, by rw [Instr.reread, colourOf_fieldE]; rfl⟩,
    fun l r t b c s hm => ⟨fun hcommon => ?_, fun hno => ?_⟩⟩
  · have hclip := State.clipRect_of_common (q := ⟨l, r, t, b⟩) hcommon
    refine ⟨_, _, congrArg _ (State.rectfillBody_of_clipRect hclip c), State.count_of_clipRect hm hclip, rfl, ?_⟩
    rw [fill, length_windowTx, List.length_replicate]
  · exact congrArg _ (State.rectfillBody_of_clipRect_none (State.clipRect_of_no_common hm hno) c)

/-! ### RECT -/

/-- Settles O32: the body of RECT tests for an inverted request, then folds the body of RECTFILL over the edges. -/
theorem rectRule : Obligations.RectRule := by
  refine ⟨fun w hopc => decode_eq_instr_iff.mpr ⟨hopc, by rw [Instr.reread, colourOf_fieldE]; rfl⟩,
    fun l r t b c s => ⟨fun hinv => ?_, fun hrect => ?_⟩⟩
  · exact congrArg _ (if_pos hinv)
  · have hnot : ¬ (l > r ∨ t > b) := by omega
    exact ⟨_, _, _, _, rfl, rfl, rfl, rfl, congrArg _ (if_neg hnot)⟩

/-! ### BLT -/

theorem State.bltBody_of_clipRect {s : State} {q w : Rect} (h : s.clipRect q = some w) (base : Addr) :
    s.bltBody q base = s.emit (windowTx s.cfg w (w.points.map fun p => s.bltWord q base p.1 p.2)) := by
  rw [State.bltBody_eq_clippedTx, State.clippedTx, h, Option.elim_some]

theorem State.bltBody_of_clipRect_none {s : State} {q : Rect} (h : s.clipRect q = none) (base : Addr) :
    s.bltBody q base = s := by
  rw [State.bltBody_eq_clippedTx, State.clippedTx, h, Option.elim_none, State.emit_nil]

/-- A function of the points of a rectangle, listed row by row. -/
theorem Rect.map_points {α : Type} (q : Rect) (f : Int × Int → α) :
    q.points.map f = (interval q.t q.b).flatMap fun y => (interval q.l q.r).map fun x => f (x, y) := by
  simp only [Rect.points, List.map_flatMap, List.map_map, Function.comp_def]

/-- Settles O33: a common pixel makes ClipRect clamp the request, whose source words join Q in one transaction; without
one ClipRect answers none. -/
theorem bltRule : Obligations.BltRule := by
  refine ⟨fun w hopc => decode_eq_instr_iff.mpr ⟨hopc, rfl⟩,
    fun l r t b src s hm => ⟨fun hcommon => ?_, fun hno => ?_⟩⟩
  · have hclip := State.clipRect_of_common (q := ⟨l, r, t, b⟩) hcommon
    refine ⟨_, congrArg _ (State.bltBody_of_clipRect hclip src), Rect.map_points _ _, ?_⟩
    rw [List.length_map, Rect.length_points, State.count_of_clipRect hm hclip]
  · exact congrArg _ (State.bltBody_of_clipRect_none (State.clipRect_of_no_common hm hno) src)

/-- The source word of the pixel `j` columns and `i` rows into the window `w`: the pointer starts `w.t - q.t` rows and
`w.l - q.l` words in, and goes on by whole unclipped rows (42 R115). -/
theorem State.bltWord_offset (s : State) (q w : Rect) (base : Addr) (i j : Int) :
    s.bltWord q base (w.l + j) (w.t + i) =
      s.srcAt ((base.toNat + (w.t - q.t) * (q.r - q.l + 1) + (w.l - q.l)) + i * (q.r - q.l + 1) + j) := by
  rw [State.bltWord]
  congr 1
  ring

/-- Settles O34: the clipped window starts inside the request, and its words are counted from its corner. -/
theorem bltPointerDescription : Obligations.BltPointerDescription := by
  rintro l r t b src s w _ _ _ hclip rfl rfl rfl
  have hwords : w.points.map (fun p => s.bltWord ⟨l, r, t, b⟩ src p.1 p.2) =
      (List.range (w.b - w.t + 1).toNat).flatMap fun i : Nat => (List.range (w.r - w.l + 1).toNat).map fun j : Nat =>
        s.srcAt ((src.toNat + (w.t - t) * (r - l + 1) + (w.l - l)) + i * (r - l + 1) + j) := by
    simp only [Rect.map_points, interval, List.flatMap_map, List.map_map, Function.comp_def, Int.ofNat_eq_natCast,
      State.bltWord_offset]
  obtain ⟨hleft, htop⟩ : l ≤ w.l ∧ t ≤ w.t := by
    obtain ⟨-, -, rfl⟩ := State.clipRect_some hclip
    exact ⟨le_max_left .., le_max_left ..⟩
  refine ⟨Int.sub_nonneg_of_le hleft, Int.sub_nonneg_of_le htop, ?_⟩
  rw [← hwords]
  exact congrArg _ (State.bltBody_of_clipRect hclip src)

end Sys2Proof.Machine

/-! ## The line rasterizer (43_line R121, R122) -/

namespace Sys2Proof.Machine

/-! ### The increment of the minor coordinate -/

/-- The line of one step needs no case of its own: a quotient by zero is zero. -/
theorem lineInc_eq_tdiv (d : Int) (n : Nat) : lineInc d n = Int.tdiv (d * 65536) n := by
  unfold lineInc
  split
  · next h => rw [h, Int.natCast_zero, Int.tdiv_zero]
  · exact tdiv_eq_tdiv _ _

/-- Along the longer axis the increment is one whole pixel. -/
theorem lineInc_of_natAbs_eq {d : Int} {n : Nat} (h : d.natAbs = n) : lineInc d n = d.sign * 65536 := by
  obtain rfl | hd := eq_or_ne d 0
  · simp [lineInc_eq_tdiv]
  · have hn : (n : Int) ≠ 0 := by omega
    have hscaled : d * 65536 = n * (d.sign * 65536) := by
      rw [← h, ← Int.mul_assoc, Int.mul_comm _ d.sign, Int.sign_mul_natAbs]
    rw [lineInc_eq_tdiv, hscaled, Int.mul_tdiv_cancel_left _ hn]

theorem natAbs_lineInc (d : Int) (n : Nat) : (lineInc d n).natAbs = d.natAbs * 65536 / n := by
  rw [lineInc_eq_tdiv, Int.natAbs_tdiv, Int.natAbs_mul]
  rfl

/-- The minor coordinate moves by at most one pixel a step. -/
theorem natAbs_lineInc_le {d : Int} {n : Nat} (h : d.natAbs ≤ n) : (lineInc d n).natAbs ≤ 65536 := by
  rw [natAbs_lineInc]
  exact Nat.div_le_of_le_mul (Nat.mul_le_mul_right _ h)

/-- Up to step `n` the increments do not exceed the scaled distance. -/
theorem natAbs_mul_lineInc_le (d : Int) {n i : Nat} (hi : i ≤ n) : (i * lineInc d n).natAbs ≤ d.natAbs * 65536 := by
  rw [Int.natAbs_mul, Int.natAbs_natCast, natAbs_lineInc]
  exact (Nat.mul_le_mul_right _ hi).trans (Nat.mul_div_le _ _)

/-- The `n` increments miss the scaled distance by the remainder of one division, which is less than `n`. -/
theorem natAbs_mul_lineInc_sub_le {d : Int} {n : Nat} (h : d.natAbs ≤ n) :
    (n * lineInc d n - d * 65536).natAbs ≤ n - 1 := by
  have hrem : n * lineInc d n - d * 65536 = -(Int.tmod (d * 65536) n) := by
    rw [lineInc_eq_tdiv, Int.tmod_def]
    omega
  rw [hrem, Int.natAbs_neg, Int.natAbs_tmod, Int.natAbs_natCast]
  obtain rfl | hn := Nat.eq_zero_or_pos n
  · have hd : d = 0 := by omega
    simp [hd]
  · exact Nat.le_sub_one_of_lt (Nat.mod_lt _ hn)

/-! ### The two coordinates of a step -/

/-- The 16.16 accumulator at step `i` of an axis that runs from `m1` to `m2` in `n` steps (43 R121). -/
def lineAcc (m1 m2 : Int) (n i : Nat) : Int := m1 * 65536 + 32768 + i * lineInc (m2 - m1) n

/-- The coordinate at step `i` of an axis that runs from `m1` to `m2` in `n` steps. The longer axis is no exception
(`lineAt_of_longer`), so that this one function gives both coordinates of a step (`lineSteps_eq_map`). -/
def lineAt (m1 m2 : Int) (n i : Nat) : Int := lineAcc m1 m2 n i / 65536

theorem ddaWalk_eq_map (count : Nat) (major dir acc inc : Int) :
    ddaWalk count major dir acc inc =
      (List.range count).map fun i : Nat => (major + i * dir, (acc + i * inc) / 65536) := by
  induction count generalizing major acc with
  | zero => rfl
  | succ n ih =>
    rw [ddaWalk, ih, List.range_succ_eq_map, List.map_cons, List.map_map]
    have hgrow (a b : Int) (i : Nat) : a + b + i * b = a + ((i + 1 : Nat) : Int) * b := by push_cast; ring
    simp [hgrow]

/-- The longer axis goes one unit a step: the accumulator is its coordinate with the half-step bias. -/
theorem lineAt_of_longer {m1 m2 : Int} {n : Nat} (h : (m2 - m1).natAbs = n) (i : Nat) :
    lineAt m1 m2 n i = m1 + i * (m2 - m1).sign := by
  rw [lineAt, lineAcc, lineInc_of_natAbs_eq h, ← Int.mul_assoc]
  omega

theorem lineN_eq_of_le {x1 y1 x2 y2 : Int} (h : (y2 - y1).natAbs ≤ (x2 - x1).natAbs) :
    (x2 - x1).natAbs = lineN x1 y1 x2 y2 := (max_eq_left h).symm

theorem lineN_eq_of_lt {x1 y1 x2 y2 : Int} (h : (x2 - x1).natAbs < (y2 - y1).natAbs) :
    (y2 - y1).natAbs = lineN x1 y1 x2 y2 := (max_eq_right h.le).symm

theorem natAbs_dx_le_lineN (x1 y1 x2 y2 : Int) : (x2 - x1).natAbs ≤ lineN x1 y1 x2 y2 := le_max_left _ _

theorem natAbs_dy_le_lineN (x1 y1 x2 y2 : Int) : (y2 - y1).natAbs ≤ lineN x1 y1 x2 y2 := le_max_right _ _

/-- The steps of DrawLine, whichever axis is the longer one. -/
theorem lineSteps_eq_map (x1 y1 x2 y2 : Int) :
    lineSteps x1 y1 x2 y2 = (List.range (lineN x1 y1 x2 y2 + 1)).map fun i =>
      (lineAt x1 x2 (lineN x1 y1 x2 y2) i, lineAt y1 y2 (lineN x1 y1 x2 y2) i) := by
  dsimp only [lineSteps]
  split
  · next h =>
    simp only [ddaWalk_eq_map, lineAt_of_longer (lineN_eq_of_le h)]
    rfl
  · next h =>
    simp only [ddaWalk_eq_map, lineAt_of_longer (lineN_eq_of_lt (Nat.lt_of_not_le h)), List.map_map]
    rfl

theorem getElem?_lineSteps {x1 y1 x2 y2 : Int} {i : Nat} (hi : i ≤ lineN x1 y1 x2 y2) :
    (lineSteps x1 y1 x2 y2)[i]? =
      some (lineAt x1 x2 (lineN x1 y1 x2 y2) i, lineAt y1 y2 (lineN x1 y1 x2 y2) i) := by
  rw [lineSteps_eq_map, List.getElem?_map, List.getElem?_range (Nat.lt_succ_of_le hi)]
  rfl

/-- A step that the line has is one of the steps 0 to `n`. -/
theorem le_lineN_of_getElem? {x1 y1 x2 y2 : Int} {i : Nat} {p : Int × Int} (h : (lineSteps x1 y1 x2 y2)[i]? = some p) :
    i ≤ lineN x1 y1 x2 y2 := by
  obtain ⟨hi, -⟩ := List.getElem?_eq_some_iff.mp h
  rw [length_lineSteps] at hi
  exact Nat.le_of_lt_succ hi

/-! ### Where an axis starts, goes and ends -/

theorem lineAt_zero (m1 m2 : Int) (n : Nat) : lineAt m1 m2 n 0 = m1 := by
  rw [lineAt, lineAcc, Int.natCast_zero, Int.zero_mul]
  omega

/-- The longer axis ends on its target. -/
theorem lineAt_last_of_longer {m1 m2 : Int} {n : Nat} (h : (m2 - m1).natAbs = n) : lineAt m1 m2 n n = m2 := by
  rw [lineAt_of_longer h, ← h, Int.mul_comm, Int.sign_mul_natAbs]
  omega

/-- The half-step bias absorbs the missing remainder of up to 32767: the coordinate ends on its target. -/
theorem lineAt_last {m1 m2 : Int} {n : Nat} (h : (m2 - m1).natAbs ≤ n) (hn : n ≤ 32768) : lineAt m1 m2 n n = m2 := by
  have hmiss := natAbs_mul_lineInc_sub_le h
  rw [lineAt, lineAcc]
  omega

/-- A remainder of up to 65534 carries the coordinate at most one past its target or short of it. -/
theorem lineAt_last_near {m1 m2 : Int} {n : Nat} (h : (m2 - m1).natAbs ≤ n) (hn : n ≤ 65535) :
    (lineAt m1 m2 n n - m2).natAbs ≤ 1 := by
  have hmiss := natAbs_mul_lineInc_sub_le h
  rw [lineAt, lineAcc]
  omega

theorem lineAcc_succ (m1 m2 : Int) (n i : Nat) : lineAcc m1 m2 n (i + 1) = lineAcc m1 m2 n i + lineInc (m2 - m1) n := by
  simp only [lineAcc, Int.natCast_add, Int.natCast_one]
  ring

/-- An increment of at most 65536 moves the coordinate by at most 1. -/
theorem natAbs_lineAt_succ_sub_le {m1 m2 : Int} {n : Nat} (h : (m2 - m1).natAbs ≤ n) (i : Nat) :
    (lineAt m1 m2 n (i + 1) - lineAt m1 m2 n i).natAbs ≤ 1 := by
  have hinc := natAbs_lineInc_le h
  rw [lineAt, lineAt, lineAcc_succ]
  omega

/-- The longer axis of a line with more than one step moves by exactly 1. -/
theorem natAbs_lineAt_succ_sub_of_longer {m1 m2 : Int} {n : Nat} (h : (m2 - m1).natAbs = n) (hn : 0 < n) (i : Nat) :
    (lineAt m1 m2 n (i + 1) - lineAt m1 m2 n i).natAbs = 1 := by
  have hstep : lineAt m1 m2 n (i + 1) - lineAt m1 m2 n i = (m2 - m1).sign := by
    rw [lineAt_of_longer h, lineAt_of_longer h, Int.natCast_add, Int.natCast_one]
    ring
  rw [hstep, Int.natAbs_sign_of_ne_zero (by omega)]

/-! ### The steps of a line -/

theorem lineAt_eq_fdiv (m1 m2 : Int) (n i : Nat) :
    lineAt m1 m2 n i = Int.fdiv (m1 * 65536 + 32768 + i * Int.tdiv ((m2 - m1) * 65536) n) 65536 := by
  rw [lineAt, lineAcc, lineInc_eq_tdiv, Int.fdiv_eq_ediv_of_nonneg _ (by decide)]

/-- Settles O36: the shorter axis as the floor of the accumulator, the longer one counted in whole pixels. -/
theorem lineStepsClosedForm : Obligations.LineStepsClosedForm := by
  refine fun x1 y1 x2 y2 => ⟨lineN x1 y1 x2 y2, rfl, fun hx => ?_, fun hy => ?_⟩
  · simp only [lineSteps_eq_map, lineAt_of_longer (lineN_eq_of_le hx), lineAt_eq_fdiv]
  · simp only [lineSteps_eq_map, lineAt_of_longer (lineN_eq_of_lt hy), lineAt_eq_fdiv]

/-- Settles O37: both axes start at the first point, and the longer one ends on its target. -/
theorem lineEndsOnMajorCoordinate : Obligations.LineEndsOnMajorCoordinate := by
  rintro x1 y1 x2 y2 n (rfl : n = lineN x1 y1 x2 y2)
  refine ⟨length_lineSteps .., ?_, ⟨_, getElem?_lineSteps le_rfl, fun hx => ?_, fun hy => ?_⟩, fun hn => ?_⟩
  · rw [getElem?_lineSteps (Nat.zero_le _), lineAt_zero, lineAt_zero]
  · exact lineAt_last_of_longer (lineN_eq_of_le hx)
  · exact lineAt_last_of_longer (lineN_eq_of_lt hy)
  · rw [lineSteps_eq_map, hn, List.range_one, List.map_singleton, lineAt_zero, lineAt_zero]

/-- Settles O38: each axis ends on its target, or next to it. -/
theorem lineEndPointExact : Obligations.LineEndPointExact := by
  rintro x1 y1 x2 y2 n (rfl : n = lineN x1 y1 x2 y2)
  have hx := natAbs_dx_le_lineN x1 y1 x2 y2
  have hy := natAbs_dy_le_lineN x1 y1 x2 y2
  refine ⟨fun hn => ?_, fun hn => ⟨_, getElem?_lineSteps le_rfl, lineAt_last_near hx hn, lineAt_last_near hy hn⟩⟩
  rw [getElem?_lineSteps le_rfl, lineAt_last hx hn, lineAt_last hy hn]

/-- Settles O39: on a tie both axes are the longer one. -/
theorem lineTieIsDiagonal : Obligations.LineTieIsDiagonal := by
  intro x1 y1 x2 y2 htie
  have hx := lineN_eq_of_le htie.ge
  simp only [lineSteps_eq_map, ← hx, lineAt_of_longer rfl, lineAt_of_longer htie.symm]

/-- Settles O40: a step moves the longer axis by exactly one pixel and each axis by at most one. -/
theorem lineStepsAreAdjacent : Obligations.LineStepsAreAdjacent := by
  intro x1 y1 x2 y2 i p q hp hq
  have hi := le_lineN_of_getElem? hq
  rw [getElem?_lineSteps (Nat.le_of_succ_le hi)] at hp
  rw [getElem?_lineSteps hi] at hq
  cases hp
  cases hq
  exact ⟨fun hx => ⟨natAbs_lineAt_succ_sub_of_longer (lineN_eq_of_le hx) (Nat.zero_lt_of_lt hi) i,
      natAbs_lineAt_succ_sub_le (natAbs_dy_le_lineN ..) i⟩,
    fun hy => ⟨natAbs_lineAt_succ_sub_of_longer (lineN_eq_of_lt hy) (Nat.zero_lt_of_lt hi) i,
      natAbs_lineAt_succ_sub_le (natAbs_dx_le_lineN ..) i⟩⟩

/-- Settles O41: the distance is below 2^16, the increment at most 2^16, and the increments so far at most the scaled
distance. -/
theorem lineAccumulatorFits34Bits : Obligations.LineAccumulatorFits34Bits := by
  intro m1 m2 n i hm1 hm2 hd hi
  simp only [isS16, Bool.and_eq_true, decide_eq_true_eq] at hm1 hm2
  have hinc := natAbs_lineInc_le hd
  have hsum := natAbs_mul_lineInc_le (m2 - m1) hi
  generalize (i : Int) * lineInc (m2 - m1) n = sum at hsum ⊢
  omega

end Sys2Proof.Machine

/-! ## The pen and line operations (43_line R123, R125 to R127) -/

namespace Sys2Proof.Machine

open Sys2Proof.Safety

/-! ### The bus traffic of plotted points -/

/-- A plotted point is a window transaction with one pixel word (41 R101). -/
theorem length_plot (c : Cfg) (x y : Int) (colour : Colour) : (plot c x y colour).length = 15 := length_windowTx ..

theorem length_flatMap_plot (c : Cfg) (ps : List (Int × Int)) (colour : Colour) :
    (ps.flatMap fun p => plot c p.1 p.2 colour).length = 15 * ps.length := by
  simp [List.length_flatMap, length_plot, Nat.mul_comm]

theorem pixels_plot {c : Cfg} {p : Int × Int} (hp : Rect.bus.has p.1 p.2 = true) (colour : Colour) :
    pixels c (plot c p.1 p.2 colour) = [pixelOf p colour] := by
  have hpoint : Rect.Within ⟨p.1, p.1, p.2, p.2⟩ Rect.bus := by
    rw [Rect.has_iff] at hp
    simp only [Rect.Within]
    omega
  rw [plot, pixels_windowTx hpoint (by simp [Rect.count])]
  simp [Rect.points, interval]

/-- Plots one after the other write their points one after the other. -/
theorem pixels_flatMap_plot {c : Cfg} {ps : List (Int × Int)} (hps : ∀ p ∈ ps, Rect.bus.has p.1 p.2 = true)
    (colour : Colour) :
    pixels c (ps.flatMap fun p => plot c p.1 p.2 colour) = ps.map fun p => pixelOf p colour := by
  induction ps with
  | nil => rfl
  | cons p ps ih =>
    obtain ⟨hp, hps⟩ := List.forall_mem_cons.mp hps
    rw [List.flatMap_cons, pixels, PanelView.pixels_append, ← pixels, pixels_plot hp, plot, PanelView.foldl_windowTx,
      ← pixels, ih hps]
    rfl

/-! ### MOVETO, LINETO and LINE -/

/-- Settles O42: the pen registers take the operands' fields, which read back as the operands. -/
theorem movetoRule : Obligations.MovetoRule :=
  ⟨fun _ hopc => decode_eq_instr_iff.mpr ⟨hopc, rfl⟩,
    fun x y _ hx hy => ⟨s16Field x, s16Field y, toInt_s16Field hx, toInt_s16Field hy, rfl⟩⟩

/-- Settles O43: each plotted step is a window transaction of one word, and the pen takes the operands' fields. -/
theorem linetoRule : Obligations.LinetoRule :=
  ⟨fun _ hopc => decode_eq_instr_iff.mpr ⟨hopc, by rw [Instr.reread, colourOf_fieldE]; rfl⟩,
    fun x y _ _ hx hy => ⟨s16Field x, s16Field y, toInt_s16Field hx, toInt_s16Field hy, rfl⟩⟩

/-- MOVETO and then LINETO is LINE, if the pen holds the first point unchanged (43 R127). -/
theorem execLineto_setPen {x1 y1 : Int} (hx1 : isS16 x1 = true) (hy1 : isS16 y1 = true) (x2 y2 : Int) (c : Colour)
    (s : State) : exec (.lineto x2 y2 c) (s.setPen x1 y1) = exec (.line x1 y1 x2 y2 c) s := by
  have hpenX : (s.setPen x1 y1).penX.toInt = x1 := toInt_s16Field hx1
  have hpenY : (s.setPen x1 y1).penY.toInt = y1 := toInt_s16Field hy1
  simp only [exec, execLineto, hpenX, hpenY]
  rfl

/-- Settles O44: LINE is LINETO with the pen at the first point. -/
theorem lineRule : Obligations.LineRule := by
  refine ⟨fun w hopc => decode_eq_instr_iff.mpr ⟨hopc, by rw [Instr.reread, colourOf_fieldE]; rfl⟩,
    fun x1 y1 x2 y2 c s hx1 hy1 hx2 hy2 => ?_⟩
  exact ⟨s16Field x2, s16Field y2, s.setPen x1 y1, toInt_s16Field hx2, toInt_s16Field hy2, rfl, rfl,
    execLineto_setPen hx1 hy1 x2 y2 c s⟩

/-- A point of a mask on the screen fits the bus (40 R82). -/
theorem State.bus_has_of_inMask {s : State} (hm : maskInv s = true) {x y : Int} (h : s.inMask x y = true) :
    Rect.bus.has x y = true :=
  ((maskInv_iff.mp hm).trans s.screen_within_bus).has h

/-- Settles O45: Q holds the plots of the steps in the mask, which fit the bus. -/
theorem lineBusTraffic : Obligations.LineBusTraffic := by
  intro x1 y1 x2 y2 c s hm hq
  have hqueue : ((s.drawLine x1 y1 x2 y2 c).setPen x2 y2).queue = s.lineEvents x1 y1 x2 y2 c := by
    rw [State.setPen_queue, State.drawLine, State.emit_queue, hq, List.nil_append]
  refine ⟨_, rfl, ?_, ?_⟩ <;> rw [hqueue, State.lineEvents]
  · exact length_flatMap_plot ..
  · exact pixels_flatMap_plot (fun p hp => State.bus_has_of_inMask hm (List.mem_filter.mp hp).2) c

end Sys2Proof.Machine

/-! ## Text (44_text R130 to R145) -/

namespace Sys2Proof.Machine

open Sys2Proof.Safety

/-! ### The cell getters and the packed colour -/

/-- Settles O53: each responds its byte of the cell size, zero-extended. -/
theorem cellSizeGetters : Obligations.CellSizeGetters :=
  ⟨fun _ => ⟨fun hopc => decode_eq_instr_iff.mpr ⟨hopc, rfl⟩, fun hopc => decode_eq_instr_iff.mpr ⟨hopc, rfl⟩⟩,
    fun s => ⟨s.fw.setWidth 16, s.fh.setWidth 16, BitVec.toNat_setWidth_of_le (by decide),
      BitVec.toNat_setWidth_of_le (by decide), rfl, rfl⟩⟩

/-- Settles O47: the operand replaces GCOLOR, whose halves are the two colours. -/
theorem fontcolorRule : Obligations.FontcolorRule :=
  ⟨fun _ hopc => decode_eq_instr_iff.mpr ⟨hopc, rfl⟩,
    fun _ _ _ => ⟨_, rfl, rfl, BitVec.extractLsb'_append_eq_left,
      BitVec.extractLsb'_append_eq_right⟩⟩

/-! ### FONTFACE -/

theorem State.fontSigOk_iff {s : State} {base : Addr} :
    s.fontSigOk base = true ↔ ∀ i : Fin 6, s.fontAt (base.toNat + i.val) = s.cfg.fontSig[i.val] := by
  simp [State.fontSigOk]

/-- Settles O46: the two outcomes of FONTFACE, told apart by the signature. -/
theorem fontfaceRule : Obligations.FontfaceRule := by
  refine ⟨fun w hopc => decode_eq_instr_iff.mpr ⟨hopc, rfl⟩, fun base s => ?_⟩
  rw [← State.fontSigOk_iff]
  obtain ⟨hno, hbody⟩ | ⟨hsig, hbody⟩ := s.fontfaceBody_cases base
  · exact ⟨fun hsig => absurd hsig (by simp [hno]), fun _ => congrArg _ hbody⟩
  · exact ⟨fun _ => congrArg _ hbody, fun hno => absurd hsig hno⟩

/-! ### The cursor registers (10_state R16) -/

theorem toNat_wrap16_natCast (n : Nat) : (wrap16 n).toNat = n % 65536 := by
  rw [wrap16, BitVec.ofInt_natCast, BitVec.toNat_ofNat]

/-- A register moved forward, modulo 2^16. -/
theorem toNat_wrap16_toInt_add (r : Half) (n : Nat) : (wrap16 (r.toInt + n)).toNat = (r.toNat + n) % 65536 := by
  rw [wrap16, BitVec.ofInt_add, BitVec.ofInt_toInt, BitVec.ofInt_natCast, BitVec.toNat_add, BitVec.toNat_ofNat,
    Nat.add_mod_mod]

/-- A register moved back, clamped to 0, stays in the range of `s16`. -/
theorem toInt_wrap16_max_sub (r : Half) (n : Nat) : (wrap16 (max (r.toInt - n) 0)).toInt = max (r.toInt - n) 0 := by
  have hr := toInt_le r
  exact toInt_wrap16 (by omega) (by omega)

/-- Settles O48: the cursor takes the two products modulo 2^16. -/
theorem locateRule : Obligations.LocateRule := by
  refine ⟨fun w hopc => decode_eq_instr_iff.mpr ⟨hopc, rfl⟩, fun col row s => ?_⟩
  exact ⟨_, _, toNat_wrap16_natCast (col * s.fw.toNat), toNat_wrap16_natCast (row * s.fh.toNat), rfl⟩

/-! ### The control characters (44 R137) -/

theorem execPutchar_printable (s : State) {ch : Byte} (h : ch ∉ [0x0A#8, 0x0D#8, 0x08#8, 0x0C#8]) :
    exec (.putchar ch) s = .next (s.printGlyph ch) :=
  congrArg Host.Outcome.next (s.putcharBody_printable h)

/-- Form feed's window is the whole screen. -/
theorem State.fill_screen (s : State) (c : Colour) :
    fill s.cfg s.screen c = windowTx s.cfg s.screen (List.replicate (s.w.toNat * s.h.toNat) c) := by
  simp [fill, Rect.count, State.screen]

theorem State.formFeed_eq (s : State) : s.formFeed =
    { s with
      queue := s.queue ++ windowTx s.cfg s.screen (List.replicate (s.w.toNat * s.h.toNat) 0x0000)
      curX := 0
      curY := 0 } := by
  rw [State.formFeed, State.fill_screen]
  rfl

/-- Settles O49: the four intercepted codes one by one; any other is printed. -/
theorem controlCharacters : Obligations.ControlCharacters := fun s =>
  ⟨⟨_, toNat_wrap16_toInt_add s.curY s.fh.toNat, rfl⟩, rfl, ⟨_, toInt_wrap16_max_sub s.curX s.fw.toNat, rfl⟩,
    congrArg _ s.formFeed_eq, fun _ => execPutchar_printable s⟩

/-! ### Printable characters (44 R138 to R143) -/

theorem State.cursorOnScreen_iff {s : State} :
    s.cursorOnScreen = true ↔
      0 ≤ s.curX.toInt ∧ s.curX.toInt < s.w ∧ 0 ≤ s.curY.toInt ∧ s.curY.toInt < s.h := by
  simp [State.cursorOnScreen, Rect.has_iff, State.screen]

theorem byte_eq_zero_iff (b : Byte) : b = 0 ↔ b.toNat = 0 := BitVec.toNat_eq

/-- With the cursor on the screen, only an empty cell makes an empty glyph (44 R140, R141). -/
theorem State.glyphW_eq_zero_iff {s : State} (h : s.curX.toInt < s.w) : s.glyphW = 0 ↔ s.fw = 0 := by
  rw [State.glyphW, byte_eq_zero_iff]
  omega

theorem State.glyphH_eq_zero_iff {s : State} (h : s.curY.toInt < s.h) : s.glyphH = 0 ↔ s.fh = 0 := by
  rw [State.glyphH, byte_eq_zero_iff]
  omega

/-- Settles O50: a glyph is drawn only under the negation of each of the seven conditions. -/
theorem printableDrops : Obligations.PrintableDrops := by
  intro ch s hch hcond
  rw [execPutchar_printable s hch]
  obtain hdrop | ⟨⟨hfont, hcur, hw, hh⟩, -⟩ := s.printGlyph_cases ch
  · rw [hdrop]
  · obtain ⟨hx, hxw, hy, hyh⟩ := State.cursorOnScreen_iff.mp hcur
    obtain h | h | h | h | h | h | h := hcond
    · exact absurd hfont (by simp [h])
    · omega
    · omega
    · omega
    · omega
    · exact absurd ((State.glyphW_eq_zero_iff hxw).mpr h) hw
    · exact absurd ((State.glyphH_eq_zero_iff hyh).mpr h) hh

theorem State.printGlyph_of_drawable {s : State} (hfont : s.fontValid = true) (hcur : s.cursorOnScreen = true)
    (hw : s.glyphW ≠ 0) (hh : s.glyphH ≠ 0) (ch : Byte) :
    s.printGlyph ch =
      { s.emit (windowTx s.cfg s.glyphWindow (s.glyphWords (glyphIndex ch) s.glyphW s.glyphH)) with
        curX := wrap16 (s.curX.toInt + s.glyphW) } := by
  simp [State.printGlyph, hfont, hcur, hw, hh]

theorem State.length_glyphWords_eq_mul (s : State) (g : Int) (w h : Nat) : (s.glyphWords g w h).length = w * h := by
  simp [State.glyphWords, List.length_flatMap, Nat.mul_comm]

/-- PUTCHAR's operand, `A[7:0]` (30 R65). -/
theorem lowByte_fieldA (w : CmdWord) : lowByte (fieldA w) = w.extractLsb' 80 8 := by
  ext i hi
  simp [lowByte, fieldA, show i < 16 by omega]

/-- Settles O51: the cell cut at the edges is `glyphW` by `glyphH`, which is not empty with the cursor on the screen; the
words and the window are then the model's own, by definition. -/
theorem printableDrawsGlyph : Obligations.PrintableDrawsGlyph := by
  refine ⟨fun w hopc => decode_eq_instr_iff.mpr ⟨hopc, by rw [Instr.reread, lowByte_fieldA]⟩, ?_⟩
  intro ch s gw gh bw hch hfont hx hxw hy hyh hfw hfh hgw hgh hbw
  have hcur : s.cursorOnScreen = true := State.cursorOnScreen_iff.mpr ⟨hx, hxw, hy, hyh⟩
  have hw : s.glyphW ≠ 0 := mt (State.glyphW_eq_zero_iff hxw).mp hfw
  have hh : s.glyphH ≠ 0 := mt (State.glyphH_eq_zero_iff hyh).mp hfh
  obtain rfl : gw = s.glyphW := by
    rw [State.glyphW]
    omega
  obtain rfl : gh = s.glyphH := by
    rw [State.glyphH]
    omega
  obtain rfl : bw = s.bw := hbw
  refine ⟨_, _, toNat_wrap16_toInt_add s.curX s.glyphW,
    s.length_glyphWords_eq_mul (glyphIndex ch) s.glyphW s.glyphH, rfl, ?_⟩
  rw [execPutchar_printable s hch, State.printGlyph_of_drawable hfont hcur hw hh]
  rfl

/-- Settles O52: a mask written from outside goes through PUTCHAR, which neither reads nor writes it. -/
theorem textIgnoresMask : Obligations.TextIgnoresMask := fun ch _ _ l r u b hexec =>
  exec_overwrite_apply (i := .putchar ch) (o := .mask l r u b) (by simp [Overwrite.reg, reads])
    (by simp [Overwrite.reg, writes]) hexec

end Sys2Proof.Machine

/-! ## Lifecycle (45_lifecycle R151 to R163) -/

namespace Sys2Proof.Machine

/-! ### PACKRGB -/

/-- The low byte of a 16-bit field of the command word (30 R65). -/
theorem lowByte_extractLsb' (w : CmdWord) (n : Nat) : lowByte (w.extractLsb' n 16) = w.extractLsb' n 8 := by
  ext i hi
  simp [lowByte, show i < 16 by omega]

theorem toNat_append_eq_add {m n : Nat} (x : BitVec m) (y : BitVec n) :
    (x ++ y).toNat = x.toNat * 2 ^ n + y.toNat := by
  rw [BitVec.toNat_append, ← Nat.shiftLeft_add_eq_or_of_lt y.isLt, Nat.shiftLeft_eq]

/-- The top `n` bits of a byte. -/
theorem toNat_extractLsb'_top (x : Byte) {k n : Nat} (h : k + n = 8) : (x.extractLsb' k n).toNat = x.toNat / 2 ^ k := by
  have hx : x.toNat / 2 ^ k < 2 ^ n := by
    rw [Nat.div_lt_iff_lt_mul (Nat.two_pow_pos k), ← Nat.pow_add, Nat.add_comm, h]
    exact x.isLt
  rw [BitVec.extractLsb'_toNat, Nat.shiftRight_eq_div_pow, Nat.mod_eq_of_lt hx]

/-- The packed colour by arithmetic (45 R162). -/
theorem toNat_rgb565 (r g b : Byte) :
    (rgb565 r g b).toNat = r.toNat / 8 * 2048 + g.toNat / 4 * 32 + b.toNat / 8 := by
  have hr := toNat_extractLsb'_top r (k := 3) (n := 5) rfl
  have hg := toNat_extractLsb'_top g (k := 2) (n := 6) rfl
  have hb := toNat_extractLsb'_top b (k := 3) (n := 5) rfl
  rw [rgb565, toNat_append_eq_add, toNat_append_eq_add, hr, hg, hb]
  omega

/-- Settles O59: PACKRGB responds `rgb565` of its operands, the low bytes of A, B and C. -/
theorem packrgbRule : Obligations.PackrgbRule := by
  refine ⟨fun w hopc => decode_eq_instr_iff.mpr ⟨hopc, ?_⟩, fun r g b s => ⟨_, toNat_rgb565 r g b, rfl⟩⟩
  simp only [Instr.reread, fieldA, fieldB, fieldC, lowByte_extractLsb']

/-! ### The logical size (10_state R13) -/

/-- ORIENT[0] tells the odd orientations from the even ones. -/
theorem getLsbD_zero_iff (o : BitVec 2) : o.getLsbD 0 = true ↔ ¬ o.toNat % 2 = 0 := by
  rw [BitVec.getLsbD, Nat.testBit_zero, decide_eq_true_iff, Nat.mod_two_not_eq_zero]

theorem State.w_eq (s : State) : s.w = if s.orient.toNat % 2 = 0 then s.cfg.panelW else s.cfg.panelH := by
  simp only [State.w, getLsbD_zero_iff, ite_not, Nat.cast_ite]

theorem State.h_eq (s : State) : s.h = if s.orient.toNat % 2 = 0 then s.cfg.panelH else s.cfg.panelW := by
  simp only [State.h, getLsbD_zero_iff, ite_not, Nat.cast_ite]

/-- W fits a response (10_state R13, 45 R159). -/
theorem State.toNat_wrap16_w (s : State) : ((wrap16 s.w).toNat : Int) = s.w := by
  have hw := s.w_bounds
  exact toNat_wrap16 (by omega) (by omega)

/-- H fits a response (10_state R13, 45 R160). -/
theorem State.toNat_wrap16_h (s : State) : ((wrap16 s.h).toNat : Int) = s.h := by
  have hh := s.h_bounds
  exact toNat_wrap16 (by omega) (by omega)

/-- Settles O58: the responses are W and H, which do not wrap. -/
theorem screenSizeGetters : Obligations.ScreenSizeGetters := by
  refine ⟨fun w => ⟨fun hopc => decode_eq_instr_iff.mpr ⟨hopc, rfl⟩, fun hopc => decode_eq_instr_iff.mpr ⟨hopc, rfl⟩⟩,
    fun s => ⟨wrap16 s.w, wrap16 s.h, ?_, ?_, rfl, rfl⟩⟩
  · exact_mod_cast s.toNat_wrap16_w.trans s.w_eq
  · exact_mod_cast s.toNat_wrap16_h.trans s.h_eq

/-! ### SETORIENT -/

/-- The operand of SETORIENT fits ORIENT (45 R156). -/
theorem toNat_ofNat_of_le_three {o : Nat} (ho : o ≤ 3) : (BitVec.ofNat 2 o).toNat = o := by
  rw [BitVec.toNat_ofNat]
  omega

theorem execSetorient_of_gt {o : Nat} (ho : o > 3) (s : State) : exec (.setorient o) s = .next s := by
  obtain ⟨-, h⟩ | ⟨hle, -⟩ := s.setorientBody_cases o
  · exact congrArg _ h
  · omega

theorem execSetorient_of_le {o : Nat} (ho : o ≤ 3) (s : State) :
    exec (.setorient o) s = .next
      ((s.emit (cmdx s.cfg.madctl [Cfg.orientValue s.cfg (BitVec.ofNat 2 o)])).orientTo (BitVec.ofNat 2 o)).home := by
  obtain ⟨hgt, -⟩ | ⟨-, h⟩ := s.setorientBody_cases o
  · omega
  · exact congrArg _ h

/-- The last column and row of the full-screen mask (10_state R14). -/
theorem State.orientTo_maskR_toInt (s : State) (o : BitVec 2) : (s.orientTo o).maskR.toInt = (s.orientTo o).w - 1 :=
  congrArg Rect.r (s.orientTo_mask_eq_screen o)

theorem State.orientTo_maskB_toInt (s : State) (o : BitVec 2) : (s.orientTo o).maskB.toInt = (s.orientTo o).h - 1 :=
  congrArg Rect.b (s.orientTo_mask_eq_screen o)

/-- Settles O56: both outcomes of SETORIENT, the mask being the screen of the new orientation. -/
theorem setorientRule : Obligations.SetorientRule := by
  refine ⟨fun w hopc => decode_eq_instr_iff.mpr ⟨hopc, rfl⟩,
    fun o s => ⟨fun ho => execSetorient_of_gt ho s, fun ho => ?_⟩⟩
  have hv := toNat_ofNat_of_le_three ho
  refine ⟨BitVec.ofNat 2 o, Cfg.orientValue s.cfg (BitVec.ofNat 2 o), (s.orientTo (BitVec.ofNat 2 o)).maskR,
    (s.orientTo (BitVec.ofNat 2 o)).maskB, hv, ?_, ?_, ?_, execSetorient_of_le ho s⟩
  · simp [Cfg.orientValue, hv, show o < 4 by omega]
  · rw [State.orientTo_maskR_toInt, State.w_eq, State.orientTo_orient, hv, State.orientTo_cfg]
  · rw [State.orientTo_maskB_toInt, State.h_eq, State.orientTo_orient, hv, State.orientTo_cfg]

/-! ### A cycle of orientations -/

/-- The mask is the whole screen, and pen and cursor are at the origin. -/
def State.Fresh (s : State) : Prop :=
  s.mask = { l := 0, r := s.w - 1, t := 0, b := s.h - 1 } ∧ s.penX = 0 ∧ s.penY = 0 ∧ s.curX = 0 ∧ s.curY = 0

/-- The logical size is `a` by `b`, and GETW and GETH respond it. -/
def State.Sized (s : State) (a b : Nat) : Prop :=
  s.w = a ∧ s.h = b ∧ (∃ u, exec .getw s = .next u ∧ u.resp.toNat = a) ∧ ∃ u, exec .geth s = .next u ∧ u.resp.toNat = b

theorem State.sized_of_size {s : State} {a b : Nat} (hw : s.w = a) (hh : s.h = b) : s.Sized a b := by
  refine ⟨hw, hh, ⟨_, rfl, ?_⟩, ⟨_, rfl, ?_⟩⟩
  · exact_mod_cast s.toNat_wrap16_w.trans hw
  · exact_mod_cast s.toNat_wrap16_h.trans hh

/-- A change of orientation resets mask, pen and cursor, and fixes the size by the parity of the orientation. -/
theorem execSetorient_fresh_sized {o : Nat} (ho : o ≤ 3) {s : State} {c : Cfg} (hcfg : s.cfg = c) :
    ∃ t, exec (.setorient o) s = .next t ∧ t.cfg = c ∧ t.Fresh ∧
      t.Sized (if o % 2 = 0 then c.panelW else c.panelH) (if o % 2 = 0 then c.panelH else c.panelW) := by
  subst hcfg
  refine ⟨_, execSetorient_of_le ho s, rfl, ⟨State.orientTo_mask_eq_screen .., rfl, rfl, rfl, rfl⟩, ?_⟩
  have hv := toNat_ofNat_of_le_three ho
  apply State.sized_of_size
  · rw [State.w_eq, State.home_orient, State.orientTo_orient, hv]
    rfl
  · rw [State.h_eq, State.home_orient, State.orientTo_orient, hv]
    rfl

/-- Settles O57: four changes of orientation in turn, odd ones and even ones. -/
theorem orientationCycle : Obligations.OrientationCycle := by
  intro s
  obtain ⟨s1, e1, c1, f1, z1⟩ := execSetorient_fresh_sized (o := 1) (by decide) (s := s) rfl
  obtain ⟨s2, e2, c2, f2, z2⟩ := execSetorient_fresh_sized (o := 2) (by decide) c1
  obtain ⟨s3, e3, c3, f3, z3⟩ := execSetorient_fresh_sized (o := 3) (by decide) c2
  obtain ⟨s4, e4, -, f4, z4⟩ := execSetorient_fresh_sized (o := 0) (by decide) c3
  refine ⟨s1, s2, s3, s4, e1, e2, e3, e4, ?_, ?_, ?_⟩ <;>
    simp only [List.forall_mem_cons, List.not_mem_nil, false_implies, implies_true, and_true]
  · exact ⟨f1, f2, f3, f4⟩
  · exact ⟨z1, z3⟩
  · exact ⟨z2, z4⟩

/-! ### INIT

In orientation 0 the screen is the native panel (10_state R13). -/

theorem State.orientTo_zero_w (s : State) : (s.orientTo 0).w = s.cfg.panelW := (s.orientTo 0).w_eq

theorem State.orientTo_zero_h (s : State) : (s.orientTo 0).h = s.cfg.panelH := (s.orientTo 0).h_eq

theorem State.orientTo_zero_screen (s : State) :
    (s.orientTo 0).screen = { l := 0, r := s.cfg.panelW - 1, t := 0, b := s.cfg.panelH - 1 } := by
  rw [State.screen, State.orientTo_zero_w, State.orientTo_zero_h]

/-- The black fill of INIT covers the native panel (45 R151 step 6). -/
theorem State.fill_native (s : State) (c : Colour) :
    fill s.cfg (s.orientTo 0).screen c =
      windowTx s.cfg { l := 0, r := s.cfg.panelW - 1, t := 0, b := s.cfg.panelH - 1 }
        (List.replicate (s.cfg.panelW * s.cfg.panelH) c) := by
  rw [← State.orientTo_cfg s 0, State.fill_screen, State.orientTo_zero_w, State.orientTo_zero_h,
    State.orientTo_zero_screen, Int.toNat_natCast, Int.toNat_natCast, State.orientTo_cfg]

theorem tableEvents_eq (table : List InitEntry) :
    tableEvents table = table.flatMap fun e =>
      [.sel, .cmd e.cmd] ++ e.data.map .data ++ [.rel] ++ (if e.wait = 0 then [] else [.wait e.wait]) := by
  simp only [tableEvents, cmdx, gt_iff_lt, Nat.pos_iff_ne_zero, ne_eq, ite_not]

/-- FONTFACE writes the four font registers only (44 R132). -/
theorem State.fontfaceBody_frame (s : State) (base : Addr) :
    s.fontfaceBody base = { s with
      fontValid := (s.fontfaceBody base).fontValid, fontBase := (s.fontfaceBody base).fontBase
      fw := (s.fontfaceBody base).fw, fh := (s.fontfaceBody base).fh } := by
  obtain ⟨-, h⟩ | ⟨-, h⟩ := s.fontfaceBody_cases base <;> rw [h]

/-- The events of INIT, in the source's order (45 R151). -/
theorem State.initBody_queue (s : State) : s.initBody.queue = s.queue
    ++ (resetPulse s.cfg ++ tableEvents s.cfg.initTable ++ fill s.cfg (s.orientTo 0).screen Config.black
      ++ cmdx s.cfg.dispon []) := by
  rw [State.initBody_eq, State.home_queue, State.fontfaceBody_frame, State.emit_queue, State.orientTo_queue]

theorem State.initBody_mask (s : State) :
    s.initBody.mask = { l := 0, r := s.cfg.panelW - 1, t := 0, b := s.cfg.panelH - 1 } := by
  rw [State.initBody_eq, State.home_mask, State.fontfaceBody_mask, State.emit_mask, State.orientTo_mask_eq_screen,
    State.orientTo_zero_screen]

/-- Settles O55: the reset pulse leads INIT's events, and R5 keeps its delays as what exceeds their minima. -/
theorem resetPulseDelays : Obligations.ResetPulseDelays := by
  intro s hq
  refine ⟨s.initBody, s.cfg.resetLow, s.cfg.resetWait, rfl, Nat.le_add_right .., Nat.le_add_right .., ?_⟩
  rw [State.initBody_queue, hq]
  rfl

/-- INIT registers the default font as FONTFACE does: if its signature matches (45 R151 step 7, 44 R132). -/
theorem State.initBody_font (s : State) :
    ((∀ i : Fin 6, s.fontAt (s.cfg.defaultFontBase.toNat + i.val) = s.cfg.fontSig[i.val]) →
      s.initBody.fontValid = true ∧ s.initBody.fontBase = s.cfg.defaultFontBase ∧
      s.initBody.fw = s.fontAt (s.cfg.defaultFontBase.toNat + 14) ∧
      s.initBody.fh = s.fontAt (s.cfg.defaultFontBase.toNat + 15)) ∧
    (¬ (∀ i : Fin 6, s.fontAt (s.cfg.defaultFontBase.toNat + i.val) = s.cfg.fontSig[i.val]) →
      s.initBody.fontValid = s.fontValid ∧ s.initBody.fontBase = s.fontBase ∧ s.initBody.fw = s.fw ∧
      s.initBody.fh = s.fh) := by
  rw [← State.fontSigOk_iff, State.initBody_eq]
  obtain ⟨hno, h⟩ | ⟨hsig, h⟩ := State.fontfaceBody_cases ((s.orientTo 0).emit _) s.cfg.defaultFontBase
  · rw [h]
    exact ⟨fun hsig => absurd (hno.symm.trans hsig) (by decide), fun _ => ⟨rfl, rfl, rfl, rfl⟩⟩
  · rw [h]
    exact ⟨fun _ => ⟨rfl, rfl, rfl, rfl⟩, fun hno => absurd hsig hno⟩

/-- INIT writes Q, the orientation, the mask, the pen, the cursor and the font registers only (45 R151). -/
theorem State.initBody_frame (s : State) :
    s.initBody = { s with
      queue := s.initBody.queue, orient := s.initBody.orient, maskL := s.initBody.maskL, maskR := s.initBody.maskR
      maskT := s.initBody.maskT, maskB := s.initBody.maskB, penX := s.initBody.penX, penY := s.initBody.penY
      curX := s.initBody.curX, curY := s.initBody.curY, fontValid := s.initBody.fontValid
      fontBase := s.initBody.fontBase, fw := s.initBody.fw, fh := s.initBody.fh } := by
  rw [State.initBody_eq, State.fontfaceBody_frame]
  rfl

/-- Settles O54: its events one after the other, the mask of the native panel, the two outcomes of FONTFACE, and the
frame. -/
theorem initRule : Obligations.InitRule := by
  refine ⟨fun w hopc => decode_eq_instr_iff.mpr ⟨hopc, rfl⟩, fun s =>
    ⟨s.initBody, rfl, ?_, ?_, s.initBody_mask, rfl, rfl, rfl, rfl, s.initBody_font.1, s.initBody_font.2,
      s.initBody_frame⟩⟩
  · rw [State.initBody_queue, State.fill_native, tableEvents_eq]
    simp only [List.append_assoc]
    rfl
  · rw [State.initBody_eq, State.home_orient, State.fontfaceBody_frame, State.emit_orient, State.orientTo_orient]

end Sys2Proof.Machine

/-! ## No exceptions (60_exceptions R165) -/

namespace Sys2Proof.Machine

open Sys2Proof.Safety

/-- An operation responds at most once: RESP joins the response stream if the operation writes it, and otherwise the stream
stays (10_state R26, R34). -/
theorem exec_responded {i : Instr} {s t : State} (hexec : exec i s = .next t) :
    t.responded = s.responded ∨ t.responded = t.resp :: s.responded := by
  by_cases hresp : Reg.resp ∈ writes i
  · obtain ⟨v, hv⟩ := exec_responds s hresp
    cases hexec.symm.trans hv
    exact .inr rfl
  · obtain ⟨-, hresponded⟩ := exec_writesOnly hexec .resp hresp
    exact .inl hresponded

/-- Every step answers a next state, that of a reserved opcode too (30_encoding R67). -/
theorem step_total (s : State) : ∃ t, step s = .next t := by
  unfold step
  cases s.nextAction with
  | blockReset | drain | quiet => exact ⟨_, rfl⟩
  | accept w =>
    cases hd : decode w with
    | reserved o => exact ⟨s.accept w, by simp only [hd]⟩
    | instr i => simpa only [hd] using exec_total i (s.accept w)

/-- Settles O11: `exec` and `step` are total, Q grows at its end, and only the five responders add to the responses. -/
theorem everyStepCompletes : Obligations.EveryStepCompletes := by
  refine ⟨fun i s => ?_, step_total⟩
  obtain ⟨t, hexec⟩ := exec_total i s
  obtain ⟨es, hsur⟩ := exec_surroundings hexec
  exact ⟨t, es, hexec, congrArg Surroundings.queue hsur, exec_responded hexec⟩

end Sys2Proof.Machine
